-- ==== Sys2Proof/Word.lean ====
section
/-! DEFINITION. The words of the LR333x0: the widths that 00_scope.md R3 fixes. -/

namespace Sys2Proof

/-- A 32-bit word: general registers, HI, LO, CP0 registers, addresses, instructions (R3). -/
abbrev Word := BitVec 32

/-- A byte of memory (R3, R50). -/
abbrev Byte := BitVec 8

/-- The number of a general register or of a CP0 register, a 5-bit field (R7, R10, R22). -/
abbrev RegIdx := BitVec 5

end Sys2Proof
end

