-- ==== Sys2Proof/Config.lean ====
section
/-! DEFINITION. What an implementation of the LR333x0 fixes (00_scope.md R4), as plain data that `State` carries, and the
values the spec leaves open, as constants with no body. -/

namespace Sys2Proof

/-- The two parts the name LR333x0 stands for (R1). -/
inductive Part where
  | lr33300
  | lr33310
deriving DecidableEq, Repr

/-- The numeric ExcCode values (60_exceptions.md R231): a parameter, because the source's table is lost. The Debug
exception uses the Bp code (R274). -/
structure ExcCodes where
  int : BitVec 4
  adEL : BitVec 4
  adES : BitVec 4
  ibe : BitVec 4
  dbe : BitVec 4
  sys : BitVec 4
  bp : BitVec 4
  ri : BitVec 4
  cpU : BitVec 4
  ovf : BitVec 4
deriving DecidableEq, Repr

/-- A region of the parameter `physMap` (R4, 20_memory.md R53): the virtual addresses `first` to `last` lie at `phys` and up.
Every mapping of the addresses outside kseg0 and kseg1 is a list of such regions. -/
structure MapRegion where
  first : Word
  last : Word
  phys : Word
deriving DecidableEq, Repr

/-- What the platform places at a physical address (R4 `platform memory`, 20_memory.md R55): memory that keeps what is
written, memory that no store changes, or a device or nothing, where what a read gives is not the memory's. -/
inductive Place where
  | ram
  | rom
  | device
deriving DecidableEq, Repr

/-- A region of the parameter `platform memory` (R4, R55, spec decision D27): the physical addresses `first` to `last`, what
stands there, and whether a read (a fetch or a load) and a store there end with BERR (R62, R63). An absent address is one at
which both do. -/
structure PlatformRegion where
  first : Nat
  last : Nat
  place : Place
  berrRead : Bool
  berrWrite : Bool
deriving DecidableEq, Repr

/-- The parameters of R4 that are data. No step changes them. -/
structure Params where
  part : Part
  pridRev : BitVec 8
  bigEndian : Bool
  excCode : ExcCodes
  physMap : List MapRegion
  platform : List PlatformRegion
deriving DecidableEq, Repr

/-- The default table of R231, the R3000's (spec decision D3; log 3). -/
def ExcCodes.default : ExcCodes :=
  { int := 0, adEL := 4, adES := 5, ibe := 6, dbe := 7, sys := 8, bp := 9, ri := 10, cpU := 11, ovf := 12 }

/-- The configuration of the state after reset: the spec's defaults where R4 gives one, else a choice (DESIGN CHOICE:
LR33300, big-endian and a platform of memory only; log 1, log 10, log 11, log 27). -/
def Params.default : Params :=
  { part := .lr33300, pridRev := 0x0A, bigEndian := true, excCode := .default, physMap := [], platform := [] }

/-- The two places at which an instruction reads a general register: its `rs` (or `base`) field and its `rt` field (R7). -/
inductive Port where
  | rs
  | rt
deriving DecidableEq, Repr

/-- What a register operand reads as in the load delay slot of that register (10_state.md R18, D6): free, by the index of
the step's draws and by the place that reads (log 6). -/
opaque Config.loadDelayRead : Nat → Port → Word

/-- `divSpecial` (R4, 44_multiply_divide.md R166): the pair (LO, HI) after a division by zero, or after
0x80000000 / 0xFFFFFFFF, by signedness and operands. No law (log 9). -/
opaque Config.divSpecial : Bool → Word → Word → Word × Word

/-- `Cause.BT` after an exception entry outside a branch delay slot (60_exceptions.md R250, D23; log 23). -/
opaque Config.drawBT : Nat → Bool

/-- `Cause.CE` after an entry other than Coprocessor Unusable (R250, D23; log 23). -/
opaque Config.drawCE : Nat → BitVec 2

/-- `TAR` after an entry not in the delay slot of a taken branch (R250, 10_state.md R33, D23; log 23). -/
opaque Config.drawTAR : Nat → Word

/-- `HI` after an entry that cancelled a multiply-unit write (70_reset_and_hazards.md R315; log 40). -/
opaque Config.drawHI : Nat → Word

/-- `LO` after an entry that cancelled a multiply-unit write (R315; log 40). -/
opaque Config.drawLO : Nat → Word

/-- `EPC` after an MTC0 to it, by the value written (10_state.md R34, D19; log 19). -/
opaque Config.epcAfterWrite : Nat → Word → Word

/-- What makes a read transaction: the fetch of a step or its data access. -/
inductive Access where
  | fetch
  | data
deriving DecidableEq, Repr

/-- The byte that a read gives where the platform places a device or nothing, by the index of the step's draws, the kind of
read and the physical address (20_memory.md R55, R61: the platform's; log 27). -/
opaque Config.deviceByte : Nat → Access → Nat → Byte

/-- The byte that a read gives where the last store ended in a bus error, by the index of the step's draws, the kind of read and
the virtual address: the old byte of memory, the stored one from the D-Cache, or another (20_memory.md R63,
70_reset_and_hazards.md R318; log 39). -/
opaque Config.failedStoreByte : Nat → Access → Word → Byte

end Sys2Proof
end

