-- ==== Sys2Proof/Syntax.lean ====
section
/-! DEFINITION. The instructions: one constructor per row of spec/opcode_table.json, in the table's order. The operands
stand in the order of the assembler syntax (30_encoding.md R91): `rt, offset(base)`, `rt, rs, immediate`, `rd, rs, rt`,
`rd, rt, shamt`, `rd, rt, rs`, `rs, rt, offset`. -/

namespace Sys2Proof

/-- An instruction of the LR333x0. -/
inductive Instr where
  -- Shifts (43_shift.md).
  /-- SLL (R146). -/
  | sll (rd : RegIdx) (rt : RegIdx) (shamt : BitVec 5)
  /-- SRL (R147). -/
  | srl (rd : RegIdx) (rt : RegIdx) (shamt : BitVec 5)
  /-- SRA (R148). -/
  | sra (rd : RegIdx) (rt : RegIdx) (shamt : BitVec 5)
  /-- SLLV (R149). -/
  | sllv (rd : RegIdx) (rt : RegIdx) (rs : RegIdx)
  /-- SRLV (R150). -/
  | srlv (rd : RegIdx) (rt : RegIdx) (rs : RegIdx)
  /-- SRAV (R151). -/
  | srav (rd : RegIdx) (rt : RegIdx) (rs : RegIdx)
  -- Register jumps (45_jump_branch.md).
  /-- JR (R174). -/
  | jr (rs : RegIdx)
  /-- JALR (R175). -/
  | jalr (rs : RegIdx) (rd : RegIdx)
  -- Special (46_special.md). `code` is bits 25:6, which the hardware ignores (R191, R192).
  /-- SYSCALL (R191). -/
  | syscall (code : BitVec 20)
  /-- BREAK (R192). -/
  | brk (code : BitVec 20)
  -- Multiply and divide (44_multiply_divide.md).
  /-- MFHI (R160). -/
  | mfhi (rd : RegIdx)
  /-- MTHI (R162). -/
  | mthi (rs : RegIdx)
  /-- MFLO (R161). -/
  | mflo (rd : RegIdx)
  /-- MTLO (R163). -/
  | mtlo (rs : RegIdx)
  /-- MULT (R156). -/
  | mult (rs : RegIdx) (rt : RegIdx)
  /-- MULTU (R157). -/
  | multu (rs : RegIdx) (rt : RegIdx)
  /-- DIV (R158). -/
  | div (rs : RegIdx) (rt : RegIdx)
  /-- DIVU (R159). -/
  | divu (rs : RegIdx) (rt : RegIdx)
  -- Three-operand register type (42_alu_register.md).
  /-- ADD (R131). -/
  | add (rd : RegIdx) (rs : RegIdx) (rt : RegIdx)
  /-- ADDU (R132). -/
  | addu (rd : RegIdx) (rs : RegIdx) (rt : RegIdx)
  /-- SUB (R133). -/
  | sub (rd : RegIdx) (rs : RegIdx) (rt : RegIdx)
  /-- SUBU (R134). -/
  | subu (rd : RegIdx) (rs : RegIdx) (rt : RegIdx)
  /-- AND (R137). -/
  | and (rd : RegIdx) (rs : RegIdx) (rt : RegIdx)
  /-- OR (R138). -/
  | or (rd : RegIdx) (rs : RegIdx) (rt : RegIdx)
  /-- XOR (R139). -/
  | xor (rd : RegIdx) (rs : RegIdx) (rt : RegIdx)
  /-- NOR (R140). -/
  | nor (rd : RegIdx) (rs : RegIdx) (rt : RegIdx)
  /-- SLT (R135). -/
  | slt (rd : RegIdx) (rs : RegIdx) (rt : RegIdx)
  /-- SLTU (R136). -/
  | sltu (rd : RegIdx) (rs : RegIdx) (rt : RegIdx)
  -- Branches and jumps (45_jump_branch.md).
  /-- BLTZ (R181). -/
  | bltz (rs : RegIdx) (offset : BitVec 16)
  /-- BGEZ (R182). -/
  | bgez (rs : RegIdx) (offset : BitVec 16)
  /-- BLTZAL (R183). -/
  | bltzal (rs : RegIdx) (offset : BitVec 16)
  /-- BGEZAL (R184). -/
  | bgezal (rs : RegIdx) (offset : BitVec 16)
  /-- J (R172). -/
  | j (target : BitVec 26)
  /-- JAL (R173). -/
  | jal (target : BitVec 26)
  /-- BEQ (R177). -/
  | beq (rs : RegIdx) (rt : RegIdx) (offset : BitVec 16)
  /-- BNE (R178). -/
  | bne (rs : RegIdx) (rt : RegIdx) (offset : BitVec 16)
  /-- BLEZ (R179). -/
  | blez (rs : RegIdx) (offset : BitVec 16)
  /-- BGTZ (R180). -/
  | bgtz (rs : RegIdx) (offset : BitVec 16)
  -- ALU immediate (41_alu_immediate.md).
  /-- ADDI (R121). -/
  | addi (rt : RegIdx) (rs : RegIdx) (imm : BitVec 16)
  /-- ADDIU (R122). -/
  | addiu (rt : RegIdx) (rs : RegIdx) (imm : BitVec 16)
  /-- SLTI (R123). -/
  | slti (rt : RegIdx) (rs : RegIdx) (imm : BitVec 16)
  /-- SLTIU (R124). -/
  | sltiu (rt : RegIdx) (rs : RegIdx) (imm : BitVec 16)
  /-- ANDI (R125). -/
  | andi (rt : RegIdx) (rs : RegIdx) (imm : BitVec 16)
  /-- ORI (R126). -/
  | ori (rt : RegIdx) (rs : RegIdx) (imm : BitVec 16)
  /-- XORI (R127). -/
  | xori (rt : RegIdx) (rs : RegIdx) (imm : BitVec 16)
  /-- LUI (R128). -/
  | lui (rt : RegIdx) (imm : BitVec 16)
  -- Coprocessor 0 (48_cp0.md; CFC0, CTC0, BC0F, BC0T and COP0 are in 47_coprocessor.md).
  /-- MFC0 (R212). -/
  | mfc0 (rt : RegIdx) (rd : RegIdx)
  /-- MTC0 (R213). -/
  | mtc0 (rt : RegIdx) (rd : RegIdx)
  /-- CFC0 (R202). -/
  | cfc0 (rt : RegIdx) (rd : RegIdx)
  /-- CTC0 (R201). -/
  | ctc0 (rt : RegIdx) (rd : RegIdx)
  /-- BC0F (R205). -/
  | bc0f (offset : BitVec 16)
  /-- BC0T (R204). -/
  | bc0t (offset : BitVec 16)
  /-- TLBR (R216). -/
  | tlbr
  /-- TLBWI (R216). -/
  | tlbwi
  /-- TLBWR (R216). -/
  | tlbwr
  /-- TLBP (R216). -/
  | tlbp
  /-- RFE (R214). -/
  | rfe
  /-- COP0 (R203). -/
  | cop0 (cofun : BitVec 25)
  -- Coprocessors 1 to 3 (47_coprocessor.md).
  /-- MFC1 (R200). -/
  | mfc1 (rt : RegIdx) (rd : RegIdx)
  /-- CFC1 (R202). -/
  | cfc1 (rt : RegIdx) (rd : RegIdx)
  /-- MTC1 (R199). -/
  | mtc1 (rt : RegIdx) (rd : RegIdx)
  /-- CTC1 (R201). -/
  | ctc1 (rt : RegIdx) (rd : RegIdx)
  /-- BC1F (R205). -/
  | bc1f (offset : BitVec 16)
  /-- BC1T (R204). -/
  | bc1t (offset : BitVec 16)
  /-- COP1 (R203). -/
  | cop1 (cofun : BitVec 25)
  /-- MFC2 (R200). -/
  | mfc2 (rt : RegIdx) (rd : RegIdx)
  /-- CFC2 (R202). -/
  | cfc2 (rt : RegIdx) (rd : RegIdx)
  /-- MTC2 (R199). -/
  | mtc2 (rt : RegIdx) (rd : RegIdx)
  /-- CTC2 (R201). -/
  | ctc2 (rt : RegIdx) (rd : RegIdx)
  /-- BC2F (R205). -/
  | bc2f (offset : BitVec 16)
  /-- BC2T (R204). -/
  | bc2t (offset : BitVec 16)
  /-- COP2 (R203). -/
  | cop2 (cofun : BitVec 25)
  /-- MFC3 (R200). -/
  | mfc3 (rt : RegIdx) (rd : RegIdx)
  /-- CFC3 (R202). -/
  | cfc3 (rt : RegIdx) (rd : RegIdx)
  /-- MTC3 (R199). -/
  | mtc3 (rt : RegIdx) (rd : RegIdx)
  /-- CTC3 (R201). -/
  | ctc3 (rt : RegIdx) (rd : RegIdx)
  /-- BC3F (R205). -/
  | bc3f (offset : BitVec 16)
  /-- BC3T (R204). -/
  | bc3t (offset : BitVec 16)
  /-- COP3 (R203). -/
  | cop3 (cofun : BitVec 25)
  -- Loads and stores (40_load_store.md).
  /-- LB (R102). -/
  | lb (rt : RegIdx) (offset : BitVec 16) (base : RegIdx)
  /-- LH (R104). -/
  | lh (rt : RegIdx) (offset : BitVec 16) (base : RegIdx)
  /-- LWL (R107). -/
  | lwl (rt : RegIdx) (offset : BitVec 16) (base : RegIdx)
  /-- LW (R106). -/
  | lw (rt : RegIdx) (offset : BitVec 16) (base : RegIdx)
  /-- LBU (R103). -/
  | lbu (rt : RegIdx) (offset : BitVec 16) (base : RegIdx)
  /-- LHU (R105). -/
  | lhu (rt : RegIdx) (offset : BitVec 16) (base : RegIdx)
  /-- LWR (R108). -/
  | lwr (rt : RegIdx) (offset : BitVec 16) (base : RegIdx)
  /-- SB (R109). -/
  | sb (rt : RegIdx) (offset : BitVec 16) (base : RegIdx)
  /-- SH (R110). -/
  | sh (rt : RegIdx) (offset : BitVec 16) (base : RegIdx)
  /-- SWL (R112). -/
  | swl (rt : RegIdx) (offset : BitVec 16) (base : RegIdx)
  /-- SW (R111). -/
  | sw (rt : RegIdx) (offset : BitVec 16) (base : RegIdx)
  /-- SWR (R113). -/
  | swr (rt : RegIdx) (offset : BitVec 16) (base : RegIdx)
  -- Coprocessor loads and stores (47_coprocessor.md).
  /-- LWC0 (R208). -/
  | lwc0 (rt : RegIdx) (offset : BitVec 16) (base : RegIdx)
  /-- SWC0 (R208). -/
  | swc0 (rt : RegIdx) (offset : BitVec 16) (base : RegIdx)
  /-- LWC1 (R197). -/
  | lwc1 (rt : RegIdx) (offset : BitVec 16) (base : RegIdx)
  /-- SWC1 (R198). -/
  | swc1 (rt : RegIdx) (offset : BitVec 16) (base : RegIdx)
  /-- LWC2 (R197). -/
  | lwc2 (rt : RegIdx) (offset : BitVec 16) (base : RegIdx)
  /-- SWC2 (R198). -/
  | swc2 (rt : RegIdx) (offset : BitVec 16) (base : RegIdx)
  /-- LWC3 (R197). -/
  | lwc3 (rt : RegIdx) (offset : BitVec 16) (base : RegIdx)
  /-- SWC3 (R198). -/
  | swc3 (rt : RegIdx) (offset : BitVec 16) (base : RegIdx)
deriving DecidableEq, Repr

end Sys2Proof
end

