-- ==== Sys2Proof/Machine/State.lean ====
section
/-! DEFINITION. The state of one LR333x0 as plain data (10_state.md, opening tuple), the inputs of a step (R40), the reasons
a step can stop, and the state after reset (R42, 70_reset_and_hazards.md R300). -/

namespace Sys2Proof.Machine

/-! ### Inputs -/

/-- The kind of a reset (70_reset_and_hazards.md R301, D33): part of the RESET input. -/
inductive ResetKind where
  | cold
  | warm
deriving DecidableEq, Repr

/-- The external inputs of one step (10_state.md R40). -/
structure Inputs where
  /-- `INT[5:0]`: the levels of the six hardware interrupt requests (R30, R246). -/
  int : BitVec 6
  /-- `INTMASK`: masks the six hardware interrupts (R240). -/
  intMask : Bool
  /-- `CPC[3:0]`: the condition lines that BCzT and BCzF test, 1 = true (47_coprocessor.md R204 to R206). -/
  cpc : BitVec 4
  /-- `BERR` ends the instruction fetch of this step (20_memory.md R62). -/
  berrFetch : Bool
  /-- `BERR` ends the data transaction of this step (R62, R63). -/
  berrData : Bool
  /-- A parity error on the instruction fetch of this step (R26, R64). -/
  parityFetch : Bool
  /-- A parity error on the data read of this step (R26, R64). -/
  parityData : Bool
  /-- A pending late store bus error is deliverable in this step (R63, R19 step 3). -/
  deliverStoreError : Bool
  /-- `RESET` is asserted in this step, for a reset of this kind (R300, R301). -/
  reset : Option ResetKind
deriving DecidableEq, Repr

/-- No input asserted. -/
def Inputs.quiet : Inputs :=
  { int := 0, intMask := false, cpc := 0, berrFetch := false, berrData := false, parityFetch := false,
    parityData := false, deliverStoreError := false, reset := none }

/-! ### Pieces of the state -/

/-- The delay-slot record `ds` (10_state.md R17). -/
structure DelaySlot where
  /-- The address of the jump or branch. -/
  bpc : Word
  taken : Bool
  target : Word
deriving DecidableEq, Repr

/-- The load-delay record `ld` (10_state.md R18). -/
structure PendingLoad where
  reg : RegIdx
  value : Word
deriving DecidableEq, Repr

/-- The Status register by its fields (10_state.md R23). Its other bits, TS among them, are constant zero. -/
structure Status where
  /-- `Cu[3:0]`, bits 31:28. -/
  cu : BitVec 4
  /-- Bit 22. -/
  bev : Bool
  /-- Bit 20. -/
  pe : Bool
  /-- Bit 18. -/
  pz : Bool
  /-- Bit 16. -/
  isC : Bool
  /-- The interrupt mask `Intr[5:0]`, `Sw[1:0]`, bits 15:8 (R27). -/
  mask : BitVec 8
  /-- Bit 5. -/
  kuo : Bool
  /-- Bit 4. -/
  ieo : Bool
  /-- Bit 3. -/
  kup : Bool
  /-- Bit 2. -/
  iep : Bool
  /-- Bit 1: false is kernel mode, true is user mode. -/
  kuc : Bool
  /-- Bit 0. -/
  iec : Bool
deriving DecidableEq, Repr

/-- The stored fields of the Cause register (10_state.md R29). `IP[5:0]` is the level of the INT inputs (R30); the other
bits are constant zero. -/
structure Cause where
  /-- Bit 31. -/
  bd : Bool
  /-- Bit 30. -/
  bt : Bool
  /-- Bits 29:28. -/
  ce : BitVec 2
  /-- Bits 9:8. -/
  sw : BitVec 2
  /-- Bits 5:2. -/
  excCode : BitVec 4
deriving DecidableEq, Repr

/-- The Debug and Cache Invalidate Control register by its fields (10_state.md R36). Bits 22:6 are constant zero. -/
structure Dcic where
  /-- Bit 31, Trap Enable. -/
  tr : Bool
  /-- Bit 30, User Debug Enable. -/
  ud : Bool
  /-- Bit 29, Kernel Debug Enable. -/
  kd : Bool
  /-- Bit 28, Trace Enable. -/
  te : Bool
  /-- Bit 27, Data Write Enable. -/
  dw : Bool
  /-- Bit 26, Data Read Enable. -/
  dr : Bool
  /-- Bit 25, Data Address Breakpoint Enable. -/
  dae : Bool
  /-- Bit 24, Program Counter Breakpoint Enable. -/
  pce : Bool
  /-- Bit 23, Debug Enable. -/
  de : Bool
  /-- Bit 5, status: Trace. -/
  t : Bool
  /-- Bit 4, status: Write Reference. -/
  w : Bool
  /-- Bit 3, status: Read Reference. -/
  r : Bool
  /-- Bit 2, status: Data Address. -/
  da : Bool
  /-- Bit 1, status: Program Counter. -/
  pc : Bool
  /-- Bit 0, status: Debug. -/
  db : Bool
deriving DecidableEq, Repr

/-- Memory by physical address: a list of cells in the canonical form of `Memory.wf`. -/
abbrev Memory := List Host.Cell

/-- The state of one LR333x0. -/
structure State where
  /-- General registers x[0] to x[31] (R10); entry 0 is never read (R11). -/
  gpr : Vector Word 32
  /-- HI (R21). -/
  hi : Word
  /-- LO (R21). -/
  lo : Word
  /-- Address of the instruction of this step (R14). -/
  pc : Word
  /-- Address of the instruction of the next step (R14). -/
  npc : Word
  /-- Delay-slot record (R17). -/
  ds : Option DelaySlot
  /-- Pending load (R18). -/
  ld : Option PendingLoad
  /-- Status, CP0 register 12 (R23). -/
  sr : Status
  /-- Cause, CP0 register 13 (R29). -/
  cause : Cause
  /-- Exception Program Counter, CP0 register 14 (R34). -/
  epc : Word
  /-- Bad Address, CP0 register 8 (R32). -/
  badA : Word
  /-- Target Address, CP0 register 6 (R33). -/
  tar : Word
  /-- Debug and Cache Invalidate Control, CP0 register 7 (R36). -/
  dcic : Dcic
  /-- Breakpoint Program Counter, CP0 register 3 (R38). -/
  bpc : Word
  /-- Breakpoint Program Counter Mask, CP0 register 11 (R38). -/
  bpcm : Word
  /-- Breakpoint Data Address, CP0 register 5 (R39). -/
  bda : Word
  /-- Breakpoint Data Address Mask, CP0 register 9 (R39). -/
  bdam : Word
  /-- External memory by physical address (20_memory.md R50, R53); `params` says where the platform has memory. -/
  mem : Memory
  /-- Physical addresses of the bytes that stores of the run have written, rising (R71). -/
  storedTo : List Nat
  /-- Physical addresses of the bytes whose last store ended in a bus error, rising: what they read as is open (20_memory.md
  R63, 70_reset_and_hazards.md R318). -/
  failed : List Nat
  /-- The set of pending late store bus errors is not empty (R41 g, R63). -/
  storeError : Bool
  /-- `pc` of the previous step (R41 g, 60_exceptions.md R273). -/
  lastpc : Option Word
  /-- The previous step ended in an exception entry (R273). -/
  entered : Bool
  /-- RESET was asserted at the end of the previous step (R19 step 1, R300). -/
  resetHeld : Option ResetKind
  /-- The configuration (00_scope.md R4). -/
  params : Params
  /-- The model's own field: the inputs of this step and of later steps, quiet when the list is empty (log 38). -/
  env : List Inputs
  /-- The model's own field: the index of the free values of this step (log 41). -/
  draws : Nat
deriving DecidableEq, Repr

/-! ### Why a step stops -/

/-- The situations in which the spec gives no next state (00_scope.md R6, `UNSPECIFIED`) because the program broke one of
its rules. The processor's own faults are exceptions, which give a next state. -/
inductive Fault where
  /-- A jump or branch, BCzT and BCzF on a usable unit among them, in a branch delay slot (45_jump_branch.md R171). Raised by
  their meanings. Safe: the model stops. -/
  | branchInDelaySlot
  /-- The fetched word is of no row of the table and of neither reserved set (30_encoding.md R83 step 5). Raised by the
  step. Safe: the model stops. -/
  | unlistedEncoding (w : Word)
  /-- A fetch from a cacheable address of a byte that a store of the run wrote (20_memory.md R71). Raised by the step.
  Safe: the model stops. -/
  | fetchAfterStoreToCode
  /-- The trace condition holds in the step after an exception entry (60_exceptions.md R273). Raised by the step. Safe: the
  model stops. -/
  | traceAtExceptionVector
deriving DecidableEq, Repr

/-- The instructions, or forms of them, that act on a unit whose behaviour the spec does not give. -/
inductive Refusal where
  /-- The instruction has no meaning in the model yet. Raised by `exec`'s arms only. Safe: the model stops. -/
  | notModelled (mnemonic : String)
  /-- A load or store with SR.IsC = 1 (20_memory.md R72): it acts on the caches, whose behaviour is in a chapter that is not
  supplied. Raised by the meanings of the twelve loads and stores. Safe: the model stops. -/
  | isolatedCache
  /-- A coprocessor instruction other than BCzT and BCzF whose unit is marked usable but does not exist (47_coprocessor.md
  R197 to R203, D29). Raised by the meanings of LWCz, SWCz, MTCz, MFCz, CTCz, CFCz, COPz. Safe: the model stops. -/
  | unimplementedCoprocessor (z : BitVec 2)
  /-- LWC0 or SWC0 (47_coprocessor.md R208): "undefined and must not be used". Raised by their meanings. Safe: the model
  stops. -/
  | undefinedCoprocessor0Transfer
deriving DecidableEq, Repr

/-- What an instruction or a step answers. -/
abbrev Result := Host.Outcome State Fault Refusal

/-! ### Reset -/

/-- The machine after a cold reset (10_state.md R42, 70_reset_and_hazards.md R300, R301). The registers that reset leaves
undefined (x[1] to x[31], HI, LO, EPC, BadA, TAR, BPC, BDA) hold 0: DESIGN CHOICE, unsafe (log 30). Memory lists nothing
(log 27), the inputs are quiet (log 38), the configuration is `Params.default` (log 1). -/
def State.reset : State :=
  { gpr := Vector.replicate 32 0
    hi := 0
    lo := 0
    pc := 0xBFC00000
    npc := 0xBFC00004
    ds := none
    ld := none
    sr := { cu := 0, bev := true, pe := false, pz := false, isC := false, mask := 0, kuo := false, ieo := false,
            kup := false, iep := false, kuc := false, iec := false }
    cause := { bd := false, bt := false, ce := 0, sw := 0, excCode := 0 }
    epc := 0
    badA := 0
    tar := 0
    dcic := { tr := false, ud := false, kd := false, te := false, dw := false, dr := false, dae := false, pce := false,
              de := false, t := false, w := false, r := false, da := false, pc := false, db := false }
    bpc := 0
    bpcm := 0xFFFFFFFF
    bda := 0
    bdam := 0xFFFFFFFF
    mem := []
    storedTo := []
    failed := []
    storeError := false
    lastpc := none
    entered := false
    resetHeld := none
    params := .default
    env := []
    draws := 0 }

end Sys2Proof.Machine
end

