-- ==== Sys2Proof/Machine/Debug.lean ====
section
/-! DEFINITION. The debug facility: the conditions and the status bits they post (60_exceptions.md R270 to R276). -/

namespace Sys2Proof.Machine

/-- The facility is on in the current mode (R276). -/
def State.dbgOn (s : State) : Bool :=
  s.dcic.de && ((s.sr.kuc && s.dcic.ud) || (!s.sr.kuc && s.dcic.kd))

/-- Program-counter breakpoint (R271). -/
def State.pcHit (s : State) : Bool := s.dbgOn && s.dcic.pce && (s.pc &&& s.bpcm) == (s.bpc &&& s.bpcm)

/-- The fetch is not sequential: the previous step had a `pc`, and it was not this one less 4 (R273). -/
def State.nonSequential (s : State) : Bool :=
  match s.lastpc with
  | some last => s.pc != last + 4
  | none => false

/-- Trace (R273). -/
def State.traceHit (s : State) : Bool := s.dbgOn && s.dcic.te && s.nonSequential

/-- Data-address breakpoint for a load or a store at the address the instruction formed (R272). -/
def State.daHit (s : State) (va : Word) (write : Bool) : Bool :=
  s.dbgOn && s.dcic.dae && (va &&& s.bdam) == (s.bda &&& s.bdam) && (if write then s.dcic.dw else s.dcic.dr)

/-- The status bits after the fetch-stage conditions (R275). -/
def State.postFetchDebug (s : State) : State :=
  { s with dcic :=
      { s.dcic with
        db := s.dcic.db || (s.pcHit || s.traceHit)
        pc := s.dcic.pc || s.pcHit
        t := s.dcic.t || s.traceHit } }

/-- The status bits after the data-address condition is evaluated for a load or a store at an address (R275). -/
def State.postDataDebug (s : State) (va : Word) (write : Bool) : State :=
  { s with dcic :=
      { s.dcic with
        db := s.dcic.db || s.daHit va write
        da := s.dcic.da || s.daHit va write
        w := s.dcic.w || (s.daHit va write && write)
        r := s.dcic.r || (s.daHit va write && !write) } }

end Sys2Proof.Machine
end

