-- ==== Sys2Proof/Machine/Flags.lean ====
section
/-! DEFINITION. The LR333x0 has no flags (10_state.md R20). What other machines keep in flags stands here: the overflow
tests of ADD, ADDI and SUB, and the comparisons that write 0 or 1. -/

namespace Sys2Proof.Machine

/-- The integer is no two's complement 32-bit value. -/
def overflows (n : Int) : Bool := decide (n < -2 ^ 31) || decide (n > 2 ^ 31 - 1)

/-- `signed(a) + signed(b)` overflows (41_alu_immediate.md R121, 42_alu_register.md R131). -/
def addOverflows (a b : Word) : Bool := overflows (a.toInt + b.toInt)

/-- `signed(a) - signed(b)` overflows (R133). -/
def subOverflows (a b : Word) : Bool := overflows (a.toInt - b.toInt)

/-- 1 or 0 in a general register (R20). -/
def truth (b : Bool) : Word := if b then 1 else 0

/-- `signed(a) < signed(b)` (R123, R135). -/
def lessSigned (a b : Word) : Bool := decide (a.toInt < b.toInt)

/-- `unsigned(a) < unsigned(b)` (R124, R136). -/
def lessUnsigned (a b : Word) : Bool := decide (a.toNat < b.toNat)

end Sys2Proof.Machine
end

