-- ==== Sys2Proof/Machine/Cp0Regs.lean ====
section
/-! DEFINITION. The CP0 registers as words: layouts (10_state.md R23, R29, R35, R36), what MFC0 reads and MTC0 writes
(48_cp0.md R217, R218), and the inputs of the step. -/

namespace Sys2Proof.Machine

/-- The inputs of this step (10_state.md R19 step 2, R40). -/
def State.now (s : State) : Inputs :=
  match s.env with
  | [] => .quiet
  | i :: _ => i

/-! ### Layouts -/

/-- The Status register as a word (R23): bits 27:23, 21 (TS), 19, 17 and 7:6 are zero. -/
def Status.toWord (r : Status) : Word :=
  (r.cu ++ 0#5 ++ BitVec.ofBool r.bev ++ 0#1 ++ BitVec.ofBool r.pe ++ 0#1 ++ BitVec.ofBool r.pz ++ 0#1 ++
    BitVec.ofBool r.isC ++ r.mask ++ 0#2 ++ BitVec.ofBool r.kuo ++ BitVec.ofBool r.ieo ++ BitVec.ofBool r.kup ++
    BitVec.ofBool r.iep ++ BitVec.ofBool r.kuc ++ BitVec.ofBool r.iec :
      BitVec (4 + 5 + 1 + 1 + 1 + 1 + 1 + 1 + 1 + 8 + 2 + 1 + 1 + 1 + 1 + 1 + 1))

/-- MTC0 of `v` to the Status register (R28): a one written to PE clears it, a zero leaves it (R26). -/
def Status.written (r : Status) (v : Word) : Status :=
  { cu := v.extractLsb' 28 4
    bev := v.getLsbD 22
    pe := r.pe && !v.getLsbD 20
    pz := v.getLsbD 18
    isC := v.getLsbD 16
    mask := v.extractLsb' 8 8
    kuo := v.getLsbD 5
    ieo := v.getLsbD 4
    kup := v.getLsbD 3
    iep := v.getLsbD 2
    kuc := v.getLsbD 1
    iec := v.getLsbD 0 }

/-- The Cause register as a word, with the levels of `INT[5:0]` as its IP field (R29, R30). -/
def Cause.toWord (r : Cause) (ip : BitVec 6) : Word :=
  (BitVec.ofBool r.bd ++ BitVec.ofBool r.bt ++ r.ce ++ 0#12 ++ ip ++ r.sw ++ 0#2 ++ r.excCode ++ 0#2 :
    BitVec (1 + 1 + 2 + 12 + 6 + 2 + 2 + 4 + 2))

/-- MTC0 of `v` to the Cause register (R31): the Sw bits take bits 9:8, nothing else changes. -/
def Cause.written (r : Cause) (v : Word) : Cause := { r with sw := v.extractLsb' 8 2 }

/-- The DCIC register as a word (R36): bits 22:6 are zero. -/
def Dcic.toWord (r : Dcic) : Word :=
  (BitVec.ofBool r.tr ++ BitVec.ofBool r.ud ++ BitVec.ofBool r.kd ++ BitVec.ofBool r.te ++ BitVec.ofBool r.dw ++
    BitVec.ofBool r.dr ++ BitVec.ofBool r.dae ++ BitVec.ofBool r.pce ++ BitVec.ofBool r.de ++ 0#17 ++
    BitVec.ofBool r.t ++ BitVec.ofBool r.w ++ BitVec.ofBool r.r ++ BitVec.ofBool r.da ++ BitVec.ofBool r.pc ++
    BitVec.ofBool r.db : BitVec (1 + 1 + 1 + 1 + 1 + 1 + 1 + 1 + 1 + 17 + 1 + 1 + 1 + 1 + 1 + 1))

/-- The DCIC register an MTC0 of `v` leaves (R37). -/
def Dcic.ofWord (v : Word) : Dcic :=
  { tr := v.getLsbD 31, ud := v.getLsbD 30, kd := v.getLsbD 29, te := v.getLsbD 28, dw := v.getLsbD 27,
    dr := v.getLsbD 26, dae := v.getLsbD 25, pce := v.getLsbD 24, de := v.getLsbD 23, t := v.getLsbD 5,
    w := v.getLsbD 4, r := v.getLsbD 3, da := v.getLsbD 2, pc := v.getLsbD 1, db := v.getLsbD 0 }

/-- `PRId.Imp` (R1, R35). -/
def Part.imp : Part → BitVec 8
  | .lr33300 => 0x0A
  | .lr33310 => 0x0B

/-- The Processor Revision Identifier (R35): a constant of the configuration. -/
def prid (p : Params) : Word := (0#16 ++ Part.imp p.part ++ p.pridRev : BitVec (16 + 8 + 8))

/-! ### The status stack (60_exceptions.md R251, 48_cp0.md R214) -/

/-- The push an exception entry makes: `SR[5:0] <- SR[3:0] ++ 00`. -/
def Status.pushed (r : Status) : Status :=
  { r with kuo := r.kup, ieo := r.iep, kup := r.kuc, iep := r.iec, kuc := false, iec := false }

/-- The pop of RFE: `SR[3:0] <- SR[5:2]`, KUo and IEo unchanged. -/
def Status.popped (r : Status) : Status :=
  { r with kuc := r.kup, iec := r.iep, kup := r.kuo, iep := r.ieo }

/-- What RFE does to the Status register (48_cp0.md R214). -/
def State.popStatus (s : State) : State := { s with sr := s.sr.popped }

/-- `SR.Cu[z]` (R24). -/
def Status.usable (r : Status) (z : BitVec 2) : Bool := r.cu.getLsbD z.toNat

/-- MTC0, MFC0 and RFE raise RI: user mode and `Cu[0] = 0` (48_cp0.md R210). -/
def State.cp0Denied (s : State) : Bool := s.sr.kuc && !s.sr.usable 0

/-! ### Registers by number (R22) -/

/-- The registers of the R3000's TLB, which do not exist: access raises RI (R211). -/
def tlbRegister (n : RegIdx) : Bool := n == 0 || n == 1 || n == 2 || n == 4 || n == 10

/-- The unused registers 16 to 31: access is a no-operation (R211). -/
def unusedRegister (n : RegIdx) : Bool := n.getLsbD 4

/-- `CP0read(n)` (R217): none where there is no value. -/
def State.cp0Read (s : State) (n : RegIdx) : Option Word :=
  match n with
  | 3 => some s.bpc
  | 5 => some s.bda
  | 6 => some s.tar
  | 7 => some s.dcic.toWord
  | 8 => some s.badA
  | 9 => some s.bdam
  | 11 => some s.bpcm
  | 12 => some s.sr.toWord
  | 13 => some (s.cause.toWord s.now.int)
  | 14 => some s.epc
  | 15 => some (prid s.params)
  | _ => none

/-- `CP0write(n, v)` (R218). A write of EPC leaves a free value there (R34, D19; log 19); TAR, BadA and PRId ignore it (D18,
log 18), as do registers of no effect. -/
def State.cp0Write (s : State) (n : RegIdx) (v : Word) : State :=
  match n with
  | 3 => { s with bpc := v }
  | 5 => { s with bda := v }
  | 7 => { s with dcic := .ofWord v }
  | 9 => { s with bdam := v }
  | 11 => { s with bpcm := v }
  | 12 => { s with sr := s.sr.written v }
  | 13 => { s with cause := s.cause.written v }
  | 14 => { s with epc := Config.epcAfterWrite s.draws v }
  | _ => s

end Sys2Proof.Machine
end

