-- ==== Sys2Proof/Machine/Interrupt.lean ====
section
/-! DEFINITION. The interrupt condition and the asynchronous events of a step (60_exceptions.md R240, 20_memory.md R63). -/

namespace Sys2Proof.Machine

/-- The eight requests in the bit order of `SR[15:8]` and `Cause[15:8]` (R240): `INTMASK` hides the six hardware lines. -/
def State.requests (s : State) : BitVec 8 :=
  ((if s.now.intMask then 0#6 else s.now.int) ++ s.cause.sw : BitVec (6 + 2))

/-- The interrupt condition (R240). -/
def State.interrupted (s : State) : Bool := s.sr.iec && (s.requests &&& s.sr.mask) != 0

/-- A late store bus error is pending and the oracle delivers it now (R63). -/
def State.storeErrorDue (s : State) : Bool := s.storeError && s.now.deliverStoreError

end Sys2Proof.Machine
end

