-- ==== Sys2Proof/Machine/Operands.lean ====
section
/-! DEFINITION. Operands (30_encoding.md R82): register reads with the load-delay rule (10_state.md R11, R18), immediates,
addresses, targets and link values. -/

namespace Sys2Proof.Machine

/-- `x[i]` as the register file holds it: x[0] is zero (R11). -/
def State.x (s : State) (i : RegIdx) : Word := if i = 0 then 0 else s.gpr[i.toNat]'i.isLt

/-- A pending load names the register (R18). -/
def State.pending (s : State) (i : RegIdx) : Bool :=
  match s.ld with
  | some p => p.reg == i
  | none => false

/-- A register operand read at one of the two places of an instruction (R18, R19 step 6): a free value in the load delay
slot of the register (D6; log 6), else x[i]. -/
def State.operand (s : State) (p : Port) (i : RegIdx) : Word :=
  if i = 0 then 0 else if s.pending i then Config.loadDelayRead s.draws p else s.x i

/-- The operand in the `rs` field (alias `base`). -/
def State.rs (s : State) (i : RegIdx) : Word := s.operand .rs i

/-- The operand in the `rt` field. -/
def State.rt (s : State) (i : RegIdx) : Word := s.operand .rt i

/-- `x[i]` once the pending load has landed (R19 step 7): what LWL and LWR merge into (R18, R107). -/
def State.settled (s : State) (i : RegIdx) : Word :=
  match s.ld with
  | some p => if i = 0 then 0 else if p.reg = i then p.value else s.x i
  | none => s.x i

/-- Arithmetic immediate: `sext_32(imm)`. -/
def signImm (imm : BitVec 16) : Word := imm.signExtend 32

/-- Logical immediate: `zext_32(imm)`. -/
def zeroImm (imm : BitVec 16) : Word := imm.zeroExtend 32

/-- Upper immediate: `imm ++ 0x0000`. -/
def upperImm (imm : BitVec 16) : Word := (imm ++ 0#16 : BitVec (16 + 16))

/-- Load and store address: `x[base] + sext_32(offset)` (40_load_store.md R100). -/
def State.address (s : State) (base : RegIdx) (offset : BitVec 16) : Word := s.rs base + signImm offset

/-- Branch target: `(pc + 4) + sext_32(offset ++ 00)` (45_jump_branch.md R176). -/
def State.branchTarget (s : State) (offset : BitVec 16) : Word :=
  s.pc + 4 + (offset ++ 0#2 : BitVec (16 + 2)).signExtend 32

/-- Jump target: `(pc + 4)[31:28] ++ target ++ 00` (R172; D8, log 8: PRESUMED, unsafe). -/
def State.jumpTarget (s : State) (target : BitVec 26) : Word :=
  ((s.pc + 4).extractLsb' 28 4 ++ target ++ 0#2 : BitVec (4 + 26 + 2))

/-- Link value: `pc + 8` (R170). -/
def State.linkValue (s : State) : Word := s.pc + 8

/-- The shift count of SLLV, SRLV and SRAV: `x[rs][4:0]` (43_shift.md R149). -/
def shiftCount (v : Word) : Nat := (v.extractLsb' 0 5).toNat

end Sys2Proof.Machine
end

