-- ==== Sys2Proof/WellFormed.lean ====
section
/-! DEFINITION. Which terms of the syntax are instructions. Every operand field has the width of its type, so one check is
left: five words of the COP0 operation form are TLBR, TLBWI, TLBWR, TLBP and RFE, not COP0 (30_encoding.md R83, R87;
47_coprocessor.md R203). -/

namespace Sys2Proof

/-- The `cofun` values of the COP0 form that name another instruction (R87). -/
def namedCofun (cofun : BitVec 25) : Bool :=
  cofun == 0x01 || cofun == 0x02 || cofun == 0x06 || cofun == 0x08 || cofun == 0x10

/-- The instruction stands for the words of its own row of the opcode table. -/
def Instr.wellFormed : Instr → Bool
  | .cop0 cofun => !namedCofun cofun
  | .sll _ _ _ | .srl _ _ _ | .sra _ _ _ | .sllv _ _ _ | .srlv _ _ _ | .srav _ _ _ | .jr _ => true
  | .jalr _ _ | .syscall _ | .brk _ | .mfhi _ | .mthi _ | .mflo _ | .mtlo _ => true
  | .mult _ _ | .multu _ _ | .div _ _ | .divu _ _ | .add _ _ _ | .addu _ _ _ | .sub _ _ _ => true
  | .subu _ _ _ | .and _ _ _ | .or _ _ _ | .xor _ _ _ | .nor _ _ _ | .slt _ _ _ | .sltu _ _ _ => true
  | .bltz _ _ | .bgez _ _ | .bltzal _ _ | .bgezal _ _ | .j _ | .jal _ | .beq _ _ _ => true
  | .bne _ _ _ | .blez _ _ | .bgtz _ _ | .addi _ _ _ | .addiu _ _ _ | .slti _ _ _ | .sltiu _ _ _ => true
  | .andi _ _ _ | .ori _ _ _ | .xori _ _ _ | .lui _ _ | .mfc0 _ _ | .mtc0 _ _ | .cfc0 _ _ => true
  | .ctc0 _ _ | .bc0f _ | .bc0t _ | .tlbr | .tlbwi | .tlbwr | .tlbp => true
  | .rfe | .mfc1 _ _ | .cfc1 _ _ | .mtc1 _ _ | .ctc1 _ _ | .bc1f _ | .bc1t _ => true
  | .cop1 _ | .mfc2 _ _ | .cfc2 _ _ | .mtc2 _ _ | .ctc2 _ _ | .bc2f _ | .bc2t _ => true
  | .cop2 _ | .mfc3 _ _ | .cfc3 _ _ | .mtc3 _ _ | .ctc3 _ _ | .bc3f _ | .bc3t _ => true
  | .cop3 _ | .lb _ _ _ | .lh _ _ _ | .lwl _ _ _ | .lw _ _ _ | .lbu _ _ _ | .lhu _ _ _ => true
  | .lwr _ _ _ | .sb _ _ _ | .sh _ _ _ | .swl _ _ _ | .sw _ _ _ | .swr _ _ _ | .lwc0 _ _ _ => true
  | .swc0 _ _ _ | .lwc1 _ _ _ | .swc1 _ _ _ | .lwc2 _ _ _ | .swc2 _ _ _ | .lwc3 _ _ _ | .swc3 _ _ _ => true

end Sys2Proof
end

