-- ==== Sys2Proof/Decode.lean ====
section
/-! DEFINITION. Instruction words: fields, the decoder (30_encoding.md R83 to R90) and, after it, the encoder, with the
byte order in which a word lies in memory (20_memory.md R56). The field positions but for `op`, `funct` and BREAK's `code`,
and every opcode value, are the spec's general knowledge of MIPS I (30_encoding.md R80; log 2): PRESUMED, unsafe. -/

namespace Sys2Proof

/-! ### Fields (00_scope.md R7) -/

/-- `op`, bits 31:26. -/
def opOf (w : Word) : BitVec 6 := w.extractLsb' 26 6
/-- `rs` (alias `base`), bits 25:21. -/
def rsOf (w : Word) : RegIdx := w.extractLsb' 21 5
/-- `rt`, bits 20:16. -/
def rtOf (w : Word) : RegIdx := w.extractLsb' 16 5
/-- `rd`, bits 15:11. -/
def rdOf (w : Word) : RegIdx := w.extractLsb' 11 5
/-- `shamt`, bits 10:6. -/
def shamtOf (w : Word) : BitVec 5 := w.extractLsb' 6 5
/-- `funct`, bits 5:0. -/
def functOf (w : Word) : BitVec 6 := w.extractLsb' 0 6
/-- `imm` (alias `offset`), bits 15:0. -/
def immOf (w : Word) : BitVec 16 := w.extractLsb' 0 16
/-- `target`, bits 25:0. -/
def targetOf (w : Word) : BitVec 26 := w.extractLsb' 0 26
/-- `code`, bits 25:6. -/
def codeOf (w : Word) : BitVec 20 := w.extractLsb' 6 20
/-- Bit 25, which marks the coprocessor operation form (30_encoding.md R81). -/
def coBitOf (w : Word) : BitVec 1 := w.extractLsb' 25 1
/-- `cofun`, bits 24:0. -/
def cofunOf (w : Word) : BitVec 25 := w.extractLsb' 0 25

/-! ### Byte order (R56) -/

/-- The word whose bytes at rising addresses are `b0 b1 b2 b3`. -/
def wordOfBytes (big : Bool) (b0 b1 b2 b3 : Byte) : Word :=
  if big then b0 ++ b1 ++ b2 ++ b3 else b3 ++ b2 ++ b1 ++ b0

/-- The four bytes of a word, most significant first. -/
def bytesMsbFirst (w : Word) : List Byte :=
  [w.extractLsb' 24 8, w.extractLsb' 16 8, w.extractLsb' 8 8, w.extractLsb' 0 8]

/-- The four bytes of a word, least significant first. -/
def bytesLsbFirst (w : Word) : List Byte :=
  [w.extractLsb' 0 8, w.extractLsb' 8 8, w.extractLsb' 16 8, w.extractLsb' 24 8]

/-- The bytes of a word at rising addresses. -/
def bytesOfWord (big : Bool) (w : Word) : List Byte :=
  if big then bytesMsbFirst w else bytesLsbFirst w

/-! ### The decoder -/

/-- What a word decodes to. -/
inductive Decoded where
  /-- The instruction of the first matching row of the table (R83 step 3). -/
  | instr (i : Instr)
  /-- An undefined major opcode: raises RI (R83 step 1, R88). -/
  | reservedMajor
  /-- SPECIAL with an undefined minor opcode: raises RI (R83 step 2, R88). -/
  | reservedMinor
  /-- A word of no row and of neither reserved set: `UNSPECIFIED(unlisted encoding)` (R83 step 5). -/
  | unlisted
  /-- Fewer than four bytes: no word (R90). -/
  | truncated
deriving DecidableEq, Repr

/-- The instruction, or `unlisted` where a should-be-zero field is not zero (R83 step 3, D25: strict masks). -/
def strict (zeros : Bool) (i : Instr) : Decoded :=
  if zeros then .instr i else .unlisted

/-- `op` = 0, SPECIAL (R85). -/
def decodeSpecial (w : Word) : Decoded :=
  let rs := rsOf w; let rt := rtOf w; let rd := rdOf w; let sh := shamtOf w
  match functOf w with
  | 0x00 => strict (rs == 0) (.sll rd rt sh)
  | 0x02 => strict (rs == 0) (.srl rd rt sh)
  | 0x03 => strict (rs == 0) (.sra rd rt sh)
  | 0x04 => strict (sh == 0) (.sllv rd rt rs)
  | 0x06 => strict (sh == 0) (.srlv rd rt rs)
  | 0x07 => strict (sh == 0) (.srav rd rt rs)
  | 0x08 => strict (rt == 0 && rd == 0 && sh == 0) (.jr rs)
  | 0x09 => strict (rt == 0 && sh == 0) (.jalr rs rd)
  | 0x0C => .instr (.syscall (codeOf w))
  | 0x0D => .instr (.brk (codeOf w))
  | 0x10 => strict (rs == 0 && rt == 0 && sh == 0) (.mfhi rd)
  | 0x11 => strict (rt == 0 && rd == 0 && sh == 0) (.mthi rs)
  | 0x12 => strict (rs == 0 && rt == 0 && sh == 0) (.mflo rd)
  | 0x13 => strict (rt == 0 && rd == 0 && sh == 0) (.mtlo rs)
  | 0x18 => strict (rd == 0 && sh == 0) (.mult rs rt)
  | 0x19 => strict (rd == 0 && sh == 0) (.multu rs rt)
  | 0x1A => strict (rd == 0 && sh == 0) (.div rs rt)
  | 0x1B => strict (rd == 0 && sh == 0) (.divu rs rt)
  | 0x20 => strict (sh == 0) (.add rd rs rt)
  | 0x21 => strict (sh == 0) (.addu rd rs rt)
  | 0x22 => strict (sh == 0) (.sub rd rs rt)
  | 0x23 => strict (sh == 0) (.subu rd rs rt)
  | 0x24 => strict (sh == 0) (.and rd rs rt)
  | 0x25 => strict (sh == 0) (.or rd rs rt)
  | 0x26 => strict (sh == 0) (.xor rd rs rt)
  | 0x27 => strict (sh == 0) (.nor rd rs rt)
  | 0x2A => strict (sh == 0) (.slt rd rs rt)
  | 0x2B => strict (sh == 0) (.sltu rd rs rt)
  | _ => .reservedMinor

/-- `op` = 1, BCOND (R86). -/
def decodeBcond (w : Word) : Decoded :=
  match rtOf w with
  | 0x00 => .instr (.bltz (rsOf w) (immOf w))
  | 0x01 => .instr (.bgez (rsOf w) (immOf w))
  | 0x10 => .instr (.bltzal (rsOf w) (immOf w))
  | 0x11 => .instr (.bgezal (rsOf w) (immOf w))
  | _ => .unlisted

/-- The coprocessor forms with bit 25 clear, the same for every coprocessor number (R87): the five moves and branches are
given as constructors. -/
def decodeCopMove (w : Word) (mf cf mt ct : RegIdx → RegIdx → Instr) (bf bt : BitVec 16 → Instr) : Decoded :=
  let zeros := shamtOf w == 0 && functOf w == 0
  match rsOf w with
  | 0x00 => strict zeros (mf (rtOf w) (rdOf w))
  | 0x02 => strict zeros (cf (rtOf w) (rdOf w))
  | 0x04 => strict zeros (mt (rtOf w) (rdOf w))
  | 0x06 => strict zeros (ct (rtOf w) (rdOf w))
  | 0x08 =>
    match rtOf w with
    | 0x00 => .instr (bf (immOf w))
    | 0x01 => .instr (bt (immOf w))
    | _ => .unlisted
  | _ => .unlisted

/-- The COP0 operation form (R87): five words of it are instructions of their own, found before COP0 (R203). -/
def decodeCofun0 (cofun : BitVec 25) : Instr :=
  match cofun with
  | 0x01 => .tlbr
  | 0x02 => .tlbwi
  | 0x06 => .tlbwr
  | 0x08 => .tlbp
  | 0x10 => .rfe
  | _ => .cop0 cofun

/-- `op` = 0x10, COP0. -/
def decodeCop0 (w : Word) : Decoded :=
  if coBitOf w = 1 then .instr (decodeCofun0 (cofunOf w))
  else decodeCopMove w .mfc0 .cfc0 .mtc0 .ctc0 .bc0f .bc0t

/-- `op` = 0x11, COP1. -/
def decodeCop1 (w : Word) : Decoded :=
  if coBitOf w = 1 then .instr (.cop1 (cofunOf w))
  else decodeCopMove w .mfc1 .cfc1 .mtc1 .ctc1 .bc1f .bc1t

/-- `op` = 0x12, COP2. -/
def decodeCop2 (w : Word) : Decoded :=
  if coBitOf w = 1 then .instr (.cop2 (cofunOf w))
  else decodeCopMove w .mfc2 .cfc2 .mtc2 .ctc2 .bc2f .bc2t

/-- `op` = 0x13, COP3. -/
def decodeCop3 (w : Word) : Decoded :=
  if coBitOf w = 1 then .instr (.cop3 (cofunOf w))
  else decodeCopMove w .mfc3 .cfc3 .mtc3 .ctc3 .bc3f .bc3t

/-- The decoder, by the major opcode map (R83, R84). -/
def decodeWord (w : Word) : Decoded :=
  let rs := rsOf w; let rt := rtOf w; let imm := immOf w
  match opOf w with
  | 0x00 => decodeSpecial w
  | 0x01 => decodeBcond w
  | 0x02 => .instr (.j (targetOf w))
  | 0x03 => .instr (.jal (targetOf w))
  | 0x04 => .instr (.beq rs rt imm)
  | 0x05 => .instr (.bne rs rt imm)
  | 0x06 => strict (rt == 0) (.blez rs imm)
  | 0x07 => strict (rt == 0) (.bgtz rs imm)
  | 0x08 => .instr (.addi rt rs imm)
  | 0x09 => .instr (.addiu rt rs imm)
  | 0x0A => .instr (.slti rt rs imm)
  | 0x0B => .instr (.sltiu rt rs imm)
  | 0x0C => .instr (.andi rt rs imm)
  | 0x0D => .instr (.ori rt rs imm)
  | 0x0E => .instr (.xori rt rs imm)
  | 0x0F => strict (rs == 0) (.lui rt imm)
  | 0x10 => decodeCop0 w
  | 0x11 => decodeCop1 w
  | 0x12 => decodeCop2 w
  | 0x13 => decodeCop3 w
  | 0x20 => .instr (.lb rt imm rs)
  | 0x21 => .instr (.lh rt imm rs)
  | 0x22 => .instr (.lwl rt imm rs)
  | 0x23 => .instr (.lw rt imm rs)
  | 0x24 => .instr (.lbu rt imm rs)
  | 0x25 => .instr (.lhu rt imm rs)
  | 0x26 => .instr (.lwr rt imm rs)
  | 0x28 => .instr (.sb rt imm rs)
  | 0x29 => .instr (.sh rt imm rs)
  | 0x2A => .instr (.swl rt imm rs)
  | 0x2B => .instr (.sw rt imm rs)
  | 0x2E => .instr (.swr rt imm rs)
  | 0x30 => .instr (.lwc0 rt imm rs)
  | 0x31 => .instr (.lwc1 rt imm rs)
  | 0x32 => .instr (.lwc2 rt imm rs)
  | 0x33 => .instr (.lwc3 rt imm rs)
  | 0x38 => .instr (.swc0 rt imm rs)
  | 0x39 => .instr (.swc1 rt imm rs)
  | 0x3A => .instr (.swc2 rt imm rs)
  | 0x3B => .instr (.swc3 rt imm rs)
  | _ => .reservedMajor

/-- The decoder on any bytes: what the first word is, and the bytes after it (R90: every instruction is one word). -/
def decodeBytes (big : Bool) : List Byte → Decoded × List Byte
  | b0 :: b1 :: b2 :: b3 :: rest => (decodeWord (wordOfBytes big b0 b1 b2 b3), rest)
  | bytes => (.truncated, bytes)

/-! ### The encoder -/

/-- R-type word (R81). -/
def rWord (op : BitVec 6) (rs rt rd shamt : BitVec 5) (funct : BitVec 6) : Word :=
  (op ++ rs ++ rt ++ rd ++ shamt ++ funct : BitVec (6 + 5 + 5 + 5 + 5 + 6))

/-- I-type word (R81). -/
def iWord (op : BitVec 6) (rs rt : BitVec 5) (imm : BitVec 16) : Word :=
  (op ++ rs ++ rt ++ imm : BitVec (6 + 5 + 5 + 16))

/-- J-type word (R81). -/
def jWord (op : BitVec 6) (target : BitVec 26) : Word :=
  (op ++ target : BitVec (6 + 26))

/-- SYSCALL and BREAK: `code` in bits 25:6 (R81). -/
def codeWord (code : BitVec 20) (funct : BitVec 6) : Word :=
  (0#6 ++ code ++ funct : BitVec (6 + 20 + 6))

/-- The coprocessor operation form: bit 25 set, `cofun` in bits 24:0 (R81). -/
def copWord (op : BitVec 6) (cofun : BitVec 25) : Word :=
  (op ++ 1#1 ++ cofun : BitVec (6 + 1 + 25))

/-- The word of an instruction, by the rows of spec/opcode_table.json. -/
def encode : Instr → Word
  | .sll rd rt shamt => rWord 0x00 0x00 rt rd shamt 0x00
  | .srl rd rt shamt => rWord 0x00 0x00 rt rd shamt 0x02
  | .sra rd rt shamt => rWord 0x00 0x00 rt rd shamt 0x03
  | .sllv rd rt rs => rWord 0x00 rs rt rd 0x00 0x04
  | .srlv rd rt rs => rWord 0x00 rs rt rd 0x00 0x06
  | .srav rd rt rs => rWord 0x00 rs rt rd 0x00 0x07
  | .jr rs => rWord 0x00 rs 0x00 0x00 0x00 0x08
  | .jalr rs rd => rWord 0x00 rs 0x00 rd 0x00 0x09
  | .syscall code => codeWord code 0x0C
  | .brk code => codeWord code 0x0D
  | .mfhi rd => rWord 0x00 0x00 0x00 rd 0x00 0x10
  | .mthi rs => rWord 0x00 rs 0x00 0x00 0x00 0x11
  | .mflo rd => rWord 0x00 0x00 0x00 rd 0x00 0x12
  | .mtlo rs => rWord 0x00 rs 0x00 0x00 0x00 0x13
  | .mult rs rt => rWord 0x00 rs rt 0x00 0x00 0x18
  | .multu rs rt => rWord 0x00 rs rt 0x00 0x00 0x19
  | .div rs rt => rWord 0x00 rs rt 0x00 0x00 0x1A
  | .divu rs rt => rWord 0x00 rs rt 0x00 0x00 0x1B
  | .add rd rs rt => rWord 0x00 rs rt rd 0x00 0x20
  | .addu rd rs rt => rWord 0x00 rs rt rd 0x00 0x21
  | .sub rd rs rt => rWord 0x00 rs rt rd 0x00 0x22
  | .subu rd rs rt => rWord 0x00 rs rt rd 0x00 0x23
  | .and rd rs rt => rWord 0x00 rs rt rd 0x00 0x24
  | .or rd rs rt => rWord 0x00 rs rt rd 0x00 0x25
  | .xor rd rs rt => rWord 0x00 rs rt rd 0x00 0x26
  | .nor rd rs rt => rWord 0x00 rs rt rd 0x00 0x27
  | .slt rd rs rt => rWord 0x00 rs rt rd 0x00 0x2A
  | .sltu rd rs rt => rWord 0x00 rs rt rd 0x00 0x2B
  | .bltz rs offset => iWord 0x01 rs 0x00 offset
  | .bgez rs offset => iWord 0x01 rs 0x01 offset
  | .bltzal rs offset => iWord 0x01 rs 0x10 offset
  | .bgezal rs offset => iWord 0x01 rs 0x11 offset
  | .j target => jWord 0x02 target
  | .jal target => jWord 0x03 target
  | .beq rs rt offset => iWord 0x04 rs rt offset
  | .bne rs rt offset => iWord 0x05 rs rt offset
  | .blez rs offset => iWord 0x06 rs 0x00 offset
  | .bgtz rs offset => iWord 0x07 rs 0x00 offset
  | .addi rt rs imm => iWord 0x08 rs rt imm
  | .addiu rt rs imm => iWord 0x09 rs rt imm
  | .slti rt rs imm => iWord 0x0A rs rt imm
  | .sltiu rt rs imm => iWord 0x0B rs rt imm
  | .andi rt rs imm => iWord 0x0C rs rt imm
  | .ori rt rs imm => iWord 0x0D rs rt imm
  | .xori rt rs imm => iWord 0x0E rs rt imm
  | .lui rt imm => iWord 0x0F 0x00 rt imm
  | .mfc0 rt rd => rWord 0x10 0x00 rt rd 0x00 0x00
  | .mtc0 rt rd => rWord 0x10 0x04 rt rd 0x00 0x00
  | .cfc0 rt rd => rWord 0x10 0x02 rt rd 0x00 0x00
  | .ctc0 rt rd => rWord 0x10 0x06 rt rd 0x00 0x00
  | .bc0f offset => iWord 0x10 0x08 0x00 offset
  | .bc0t offset => iWord 0x10 0x08 0x01 offset
  | .tlbr => copWord 0x10 0x01
  | .tlbwi => copWord 0x10 0x02
  | .tlbwr => copWord 0x10 0x06
  | .tlbp => copWord 0x10 0x08
  | .rfe => copWord 0x10 0x10
  | .cop0 cofun => copWord 0x10 cofun
  | .mfc1 rt rd => rWord 0x11 0x00 rt rd 0x00 0x00
  | .cfc1 rt rd => rWord 0x11 0x02 rt rd 0x00 0x00
  | .mtc1 rt rd => rWord 0x11 0x04 rt rd 0x00 0x00
  | .ctc1 rt rd => rWord 0x11 0x06 rt rd 0x00 0x00
  | .bc1f offset => iWord 0x11 0x08 0x00 offset
  | .bc1t offset => iWord 0x11 0x08 0x01 offset
  | .cop1 cofun => copWord 0x11 cofun
  | .mfc2 rt rd => rWord 0x12 0x00 rt rd 0x00 0x00
  | .cfc2 rt rd => rWord 0x12 0x02 rt rd 0x00 0x00
  | .mtc2 rt rd => rWord 0x12 0x04 rt rd 0x00 0x00
  | .ctc2 rt rd => rWord 0x12 0x06 rt rd 0x00 0x00
  | .bc2f offset => iWord 0x12 0x08 0x00 offset
  | .bc2t offset => iWord 0x12 0x08 0x01 offset
  | .cop2 cofun => copWord 0x12 cofun
  | .mfc3 rt rd => rWord 0x13 0x00 rt rd 0x00 0x00
  | .cfc3 rt rd => rWord 0x13 0x02 rt rd 0x00 0x00
  | .mtc3 rt rd => rWord 0x13 0x04 rt rd 0x00 0x00
  | .ctc3 rt rd => rWord 0x13 0x06 rt rd 0x00 0x00
  | .bc3f offset => iWord 0x13 0x08 0x00 offset
  | .bc3t offset => iWord 0x13 0x08 0x01 offset
  | .cop3 cofun => copWord 0x13 cofun
  | .lb rt offset base => iWord 0x20 base rt offset
  | .lh rt offset base => iWord 0x21 base rt offset
  | .lwl rt offset base => iWord 0x22 base rt offset
  | .lw rt offset base => iWord 0x23 base rt offset
  | .lbu rt offset base => iWord 0x24 base rt offset
  | .lhu rt offset base => iWord 0x25 base rt offset
  | .lwr rt offset base => iWord 0x26 base rt offset
  | .sb rt offset base => iWord 0x28 base rt offset
  | .sh rt offset base => iWord 0x29 base rt offset
  | .swl rt offset base => iWord 0x2A base rt offset
  | .sw rt offset base => iWord 0x2B base rt offset
  | .swr rt offset base => iWord 0x2E base rt offset
  | .lwc0 rt offset base => iWord 0x30 base rt offset
  | .swc0 rt offset base => iWord 0x38 base rt offset
  | .lwc1 rt offset base => iWord 0x31 base rt offset
  | .swc1 rt offset base => iWord 0x39 base rt offset
  | .lwc2 rt offset base => iWord 0x32 base rt offset
  | .swc2 rt offset base => iWord 0x3A base rt offset
  | .lwc3 rt offset base => iWord 0x33 base rt offset
  | .swc3 rt offset base => iWord 0x3B base rt offset

/-- The bytes of an instruction at rising addresses. -/
def encodeBytes (big : Bool) (i : Instr) : List Byte := bytesOfWord big (encode i)

/-- The instruction the decoder reads from a word numbered as spec/opcode_table.json numbers it, its bits from `nbits` up
taken as zero: the word is laid out as bytes in the byte order after reset and given to the byte decoder. -/
def decodeTableWord (nbits w : Nat) : Option Instr :=
  let big := Params.default.bigEndian
  match (decodeBytes big (bytesOfWord big (BitVec.ofNat 32 (w % 2 ^ nbits)))).1 with
  | .instr i => some i
  | _ => none

end Sys2Proof
end

