-- ==== Sys2Proof/Machine/Memory.lean ====
section
/-! DEFINITION. External memory: its canonical form, its bytes, the mapping of virtual addresses and the accesses of
20_memory.md R50 to R58. -/

namespace Sys2Proof.Machine

/-! ### Bytes by physical address -/

/-- What an unlisted byte reads as. DESIGN CHOICE, unsafe: the spec leaves memory after reset to the platform (10_state.md
R42, D27; log 27). -/
def Memory.blank : Byte := 0

/-- The byte at a physical address. -/
def Memory.read : Memory → Nat → Byte
  | [], _ => Memory.blank
  | (a, b) :: rest, k => if k = a then b else Memory.read rest k

/-- The memory with nothing listed at an address. -/
def Memory.erase (m : Memory) (k : Nat) : Memory := m.filter (fun c => c.1 != k)

/-- The memory with a cell listed at its place in rising order. -/
def Memory.insert : Memory → Nat → Byte → Memory
  | [], k, v => [(k, v)]
  | (a, b) :: rest, k, v =>
    if k < a then (k, v) :: (a, b) :: rest
    else if k = a then (k, v) :: rest
    else (a, b) :: Memory.insert rest k v

/-- Writes one byte, keeping the canonical form: the blank byte is not listed. -/
def Memory.write (m : Memory) (k : Nat) (v : Byte) : Memory :=
  if v = Memory.blank then m.erase k else m.insert k v

/-- Addresses rise strictly, lie in the 2^32 bytes of the space (R50), and no cell holds the blank byte. -/
def Memory.wf (m : Memory) : Bool :=
  decide (m.Pairwise (fun c d => c.1 < d.1)) && m.all (fun c => decide (c.1 < 2 ^ 32) && c.2 != Memory.blank)

/-- A set of addresses, rising, with one more. -/
def noteAddress : List Nat → Nat → List Nat
  | [], k => [k]
  | a :: rest, k =>
    if k < a then k :: a :: rest
    else if k = a then a :: rest
    else a :: noteAddress rest k

/-! ### Virtual addresses (R51 to R54) -/

/-- The address lies in kseg0 (0x80000000 to 0x9FFFFFFF) or kseg1 (0xA0000000 to 0xBFFFFFFF). The bounds are the spec's
general knowledge (R51; log 45): PRESUMED, unsafe. -/
def inKseg01 (va : Word) : Bool := va.extractLsb' 30 2 == 0b10

/-- The address lies in kseg1 (R51; log 45). -/
def inKseg1 (va : Word) : Bool := va.extractLsb' 29 3 == 0b101

/-- Whether a fetch from the address may be served by the I-Cache. Only kseg1 is taken as non-cacheable (R54; log 13). -/
def cacheable (va : Word) : Bool := !inKseg1 va

/-- The region of the platform that holds a physical address: the first that does, else one of plain memory without bus
errors (00_scope.md R4 `platform memory`, R55, D27; log 27). -/
def platformAt : List PlatformRegion → Nat → PlatformRegion
  | [], a => { first := a, last := a, place := .ram, berrRead := false, berrWrite := false }
  | r :: rest, a => if r.first ≤ a ∧ a ≤ r.last then r else platformAt rest a

/-- Whether a read or a store in the region ends with BERR. -/
def regionBerr (r : PlatformRegion) (write : Bool) : Bool :=
  if write then r.berrWrite else r.berrRead

/-- `physMap` (R4, R53): the first region that holds the address maps it, an address of no region maps to itself. -/
def physMap : List MapRegion → Word → Word
  | [], va => va
  | r :: rest, va => if r.first ≤ va ∧ va ≤ r.last then r.phys + (va - r.first) else physMap rest va

/-- The physical address of a virtual address (R53). -/
def translate (p : Params) (va : Word) : Word :=
  if inKseg01 va then va &&& 0x1FFFFFFF else physMap p.physMap va

/-- The key of the memory cell a virtual address names. -/
def State.cellOf (s : State) (va : Word) : Nat := (translate s.params va).toNat

/-- The region of the platform that a virtual address names. -/
def State.regionOf (s : State) (va : Word) : PlatformRegion := platformAt s.params.platform (s.cellOf va)

/-- The platform ends a transaction on the `n` bytes from `first` on with BERR: it does so at one of their addresses (R62: "a
platform description may fix it per physical address"; log 27). DESIGN CHOICE, unsafe: every load and every fetch makes its
transaction, though one from a cacheable address may be served by a cache and make none (R61, 60_exceptions.md R233; log 51). -/
def State.platformBerr (s : State) (write : Bool) (first : Word) (n : Nat) : Bool :=
  (List.range n).any fun j => regionBerr (s.regionOf (first + BitVec.ofNat 32 j)) write

/-! ### Accesses (R56 to R58) -/

/-- The byte that a read at a virtual address gives: memory's, or a free value where the last store failed (R63, R318; log 39)
and, given by the platform, at a device (R55; log 27). DESIGN CHOICE, unsafe: so it does from a cacheable address too before
anything has initialised the caches, which reset leaves undefined (R70, R73; log 52). -/
def State.readByte (s : State) (kind : Access) (va : Word) : Byte :=
  match (s.regionOf va).place with
  | .ram | .rom =>
    if s.failed.contains (s.cellOf va) then Config.failedStoreByte s.draws kind va else s.mem.read (s.cellOf va)
  | .device => Config.deviceByte s.draws kind (s.cellOf va)

/-- The byte that a load reads at a virtual address, `M[va]`. -/
def State.byteAt (s : State) (va : Word) : Byte := s.readByte .data va

/-- `MemRead(va, 4)` for an aligned address. -/
def State.wordAt (s : State) (va : Word) : Word :=
  wordOfBytes s.params.bigEndian (s.byteAt va) (s.byteAt (va + 1)) (s.byteAt (va + 2)) (s.byteAt (va + 3))

/-- `MemRead(va, 4)` for an aligned address, as a fetch makes it. -/
def State.codeAt (s : State) (va : Word) : Word :=
  wordOfBytes s.params.bigEndian (s.readByte .fetch va) (s.readByte .fetch (va + 1)) (s.readByte .fetch (va + 2))
    (s.readByte .fetch (va + 3))

/-- `MemRead(va, 2)` for an aligned address. -/
def State.halfAt (s : State) (va : Word) : BitVec 16 :=
  if s.params.bigEndian then s.byteAt va ++ s.byteAt (va + 1) else s.byteAt (va + 1) ++ s.byteAt va

/-- The address of the aligned word that holds an address. -/
def alignedWord (va : Word) : Word := va &&& 0xFFFFFFFC

/-- The place of an address in its word, `va[1:0]`. -/
def laneOf (va : Word) : BitVec 2 := va.extractLsb' 0 2

/-- A byte stored at a physical address: memory that can be written takes it; a store to read-only memory or to a device
leaves every cell (R55; log 27). -/
def storeCell (p : Params) (m : Memory) (a : Nat) (b : Byte) : Memory :=
  match (platformAt p.platform a).place with
  | .ram => m.write a b
  | .rom | .device => m

/-- The bytes of the list are stored at rising virtual addresses from `va` on. -/
def storeCells (p : Params) : Memory → Word → List Byte → Memory
  | m, _, [] => m
  | m, va, b :: rest => storeCells p (storeCell p m (translate p va).toNat b) (va + 1) rest

/-- The cells at rising virtual addresses from `va` on hold the bytes of the list, laid there from outside the machine. -/
def layCells (p : Params) : Memory → Word → List Byte → Memory
  | m, _, [] => m
  | m, va, b :: rest => layCells p (m.write (translate p va).toNat b) (va + 1) rest

/-- A set of cells with those that rising virtual addresses from `va` on name (R71, R318). -/
def noteCells (p : Params) : List Nat → Word → Nat → List Nat
  | known, _, 0 => known
  | known, va, n + 1 => noteCells p (noteAddress known (translate p va).toNat) (va + 1) n

/-- The cell is named by one of the `n` virtual addresses from `first` on. -/
def namesCell (p : Params) (first : Word) (n a : Nat) : Bool :=
  (List.range n).any fun j => (translate p (first + BitVec.ofNat 32 j)).toNat == a

/-- The failed cells after a store that completed to `n` addresses: memory that took it is known again. Read-only memory is not,
since a cache may still hold what the failed store left there (70_reset_and_hazards.md R318; log 39). -/
def settledCells (p : Params) (failed : List Nat) (first : Word) (n : Nat) : List Nat :=
  failed.filter fun a => !((platformAt p.platform a).place == .ram && namesCell p first n a)

/-- The bytes SB, SH and SW write at their address: the low `n` bytes of the value in the byte order (R56). -/
def byteBytes (v : Word) : List Byte := [v.extractLsb' 0 8]

/-- The two bytes of a stored halfword (R56). -/
def halfBytes (big : Bool) (v : Word) : List Byte :=
  if big then [v.extractLsb' 8 8, v.extractLsb' 0 8] else [v.extractLsb' 0 8, v.extractLsb' 8 8]

/-- The address of the first byte SWL writes, and the bytes (R58, 40_load_store.md R112): the most significant byte of the
register lies at `va`, the next ones toward the least significant end of the word. -/
def swlBytes (big : Bool) (va v : Word) : Word × List Byte :=
  let k := (laneOf va).toNat
  if big then (va, (bytesMsbFirst v).take (4 - k)) else (alignedWord va, (bytesLsbFirst v).drop (3 - k))

/-- The address of the first byte SWR writes, and the bytes (R58, R113): the least significant byte of the register lies at
`va`, the ones before it toward the most significant end of the word. -/
def swrBytes (big : Bool) (va v : Word) : Word × List Byte :=
  let k := (laneOf va).toNat
  if big then (alignedWord va, (bytesMsbFirst v).drop (3 - k)) else (va, (bytesLsbFirst v).take (4 - k))

/-- The bytes that LWL and SWL access: the address of the first and their number (R58). -/
def leftSpan (big : Bool) (va : Word) : Word × Nat :=
  let k := (laneOf va).toNat
  if big then (va, 4 - k) else (alignedWord va, k + 1)

/-- The bytes that LWR and SWR access (R58). -/
def rightSpan (big : Bool) (va : Word) : Word × Nat :=
  let k := (laneOf va).toNat
  if big then (alignedWord va, k + 1) else (va, 4 - k)

/-- The value LWL loads from the aligned word `W` over the old value (R107). -/
def lwlMerge (big : Bool) (va W old : Word) : Word :=
  let k := (laneOf va).toNat
  let sh := if big then 8 * k else 8 * (3 - k)
  (W <<< sh) ||| (old &&& ((1#32 <<< sh) - 1))

/-- The value LWR loads from the aligned word `W` over the old value (R108). -/
def lwrMerge (big : Bool) (va W old : Word) : Word :=
  let k := (laneOf va).toNat
  let sh := if big then 8 * (3 - k) else 8 * k
  (W >>> sh) ||| (old &&& ~~~(0xFFFFFFFF#32 >>> sh))

end Sys2Proof.Machine
end

