-- ==== Sys2Proof/Machine/Fetch.lean ====
section
/-! DEFINITION. Instruction fetch (10_state.md R19 step 4, 20_memory.md R52, R60, R71). -/

namespace Sys2Proof.Machine

/-- User mode may not use addresses with bit 31 set (R52). -/
def State.segmentDenied (s : State) (va : Word) : Bool := s.sr.kuc && va.getLsbD 31

/-- The fetch address raises AdEL (R60). -/
def State.fetchDenied (s : State) (va : Word) : Bool := laneOf va != 0 || s.segmentDenied va

/-- A byte of the word at a cacheable address was stored to in the run (R71; log 13). -/
def State.staleCode (s : State) (va : Word) : Bool :=
  cacheable va &&
    (s.storedTo.contains (s.cellOf va) || s.storedTo.contains (s.cellOf (va + 1)) ||
      s.storedTo.contains (s.cellOf (va + 2)) || s.storedTo.contains (s.cellOf (va + 3)))

/-- The fetch of this step is ended by BERR: by the input, or by the platform at its address (R62). -/
def State.fetchBerr (s : State) : Bool := s.now.berrFetch || s.platformBerr false s.pc 4

/-- The word that a fetch at the address would read is not known: it is stored code at a cacheable address (R71), or some byte
of it is a device's (R55) or was left open by a failed store (R63). -/
def State.unknownWord (s : State) (va : Word) : Bool :=
  s.staleCode va ||
    (List.range 4).any fun j =>
      (s.regionOf (va + BitVec.ofNat 32 j)).place == .device || s.failed.contains (s.cellOf (va + BitVec.ofNat 32 j))

/-- The memory with an instruction word laid at the four bytes that a fetch at `pc` reads. -/
def State.withWordAtPc (s : State) (w : Word) : State :=
  { s with
    mem := layCells s.params s.mem s.pc (bytesOfWord s.params.bigEndian w)
    failed := s.failed.filter fun a => !namesCell s.params s.pc 4 a }

end Sys2Proof.Machine
end

