-- ==== Sys2Proof/Machine/Store.lean ====
section
/-! DEFINITION. What a store does (40_load_store.md R100, R109 to R113): the bytes it writes, the checks that stop it, and memory
behind it. -/

namespace Sys2Proof.Machine

/-- A store: its effective address, whether that is aligned for it, the address of the first byte it writes, and the bytes at
rising addresses from there on. -/
structure StoreOp where
  va : Word
  aligned : Bool
  first : Word
  bytes : List Byte
deriving DecidableEq, Repr

/-- Alignment of a word access (20_memory.md R59). -/
def wordAligned (va : Word) : Bool := laneOf va == 0

/-- Alignment of a halfword access (R59). -/
def halfAligned (va : Word) : Bool := !va.getLsbD 0

/-- The store of SB (40_load_store.md R109). -/
def State.sbStore (s : State) (rt : RegIdx) (offset : BitVec 16) (base : RegIdx) : StoreOp :=
  let va := s.address base offset
  ⟨va, true, va, byteBytes (s.rt rt)⟩

/-- The store of SH (R110). -/
def State.shStore (s : State) (rt : RegIdx) (offset : BitVec 16) (base : RegIdx) : StoreOp :=
  let va := s.address base offset
  ⟨va, halfAligned va, va, halfBytes s.params.bigEndian (s.rt rt)⟩

/-- The store of SW (R111). -/
def State.swStore (s : State) (rt : RegIdx) (offset : BitVec 16) (base : RegIdx) : StoreOp :=
  let va := s.address base offset
  ⟨va, wordAligned va, va, bytesOfWord s.params.bigEndian (s.rt rt)⟩

/-- The store of SWL (R112): no alignment constraint; only the bytes of 20_memory.md R58. -/
def State.swlStore (s : State) (rt : RegIdx) (offset : BitVec 16) (base : RegIdx) : StoreOp :=
  let va := s.address base offset
  let out := swlBytes s.params.bigEndian va (s.rt rt)
  ⟨va, true, out.1, out.2⟩

/-- The store of SWR (R113): as SWL. -/
def State.swrStore (s : State) (rt : RegIdx) (offset : BitVec 16) (base : RegIdx) : StoreOp :=
  let va := s.address base offset
  let out := swrBytes s.params.bigEndian va (s.rt rt)
  ⟨va, true, out.1, out.2⟩

/-- The store passes the checks of R100 up to its transaction: no AdES, no isolated cache, no Debug trap. -/
def State.storeRuns (s : State) (o : StoreOp) : Bool :=
  o.aligned && !s.segmentDenied o.va && !s.sr.isC && !(s.daHit o.va true && s.dcic.tr)

/-- The data transaction of this step on the `n` bytes from `first` on is ended by BERR: by the input, or by the platform at
its addresses (20_memory.md R62, R63). -/
def State.dataBerr (s : State) (write : Bool) (first : Word) (n : Nat) : Bool :=
  s.now.berrData || s.platformBerr write first n

/-- Memory after a store of `bytes` at rising addresses from `first`. Where BERR ends its transaction the error is delivered later
(R63), and what its bytes read as is open from then on (R318). The bytes count as stored to (R71) whatever the platform places
there. -/
def State.store (s : State) (first : Word) (bytes : List Byte) : State :=
  { s with
    mem := if s.dataBerr true first bytes.length then s.mem else storeCells s.params s.mem first bytes
    failed :=
      if s.dataBerr true first bytes.length then noteCells s.params s.failed first bytes.length
      else settledCells s.params s.failed first bytes.length
    storedTo := noteCells s.params s.storedTo first bytes.length
    storeError := s.storeError || s.dataBerr true first bytes.length }

/-- Memory behind a store: the store's where it passes its checks, else unchanged. -/
def State.stored (s : State) (o : StoreOp) : State := if s.storeRuns o then s.store o.first o.bytes else s

end Sys2Proof.Machine
end

