-- ==== Sys2Proof/Machine/Stream.lean ====
section
/-! DEFINITION. The instructions that the pipeline had begun behind a cancelled one, and whether they may have altered HI and LO
(60_exceptions.md R241, 70_reset_and_hazards.md R315). -/

namespace Sys2Proof.Machine

/-- The instruction writes HI or LO: MULT, MULTU, DIV, DIVU, MTHI or MTLO (R315). -/
def writesHiLo : Instr → Bool
  | .mult _ _ | .multu _ _ | .div _ _ | .divu _ _ | .mthi _ | .mtlo _ => true
  | _ => false

/-- A fetch at the address delivers a word: it raises no AdEL (R60, R52), and the platform does not end it with BERR (R62). -/
def State.delivers (s : State) (va : Word) : Bool := !s.fetchDenied va && !s.platformBerr false va 4

/-- The instruction that a fetch at the address delivers, where the word is known and is an instruction's. -/
def State.instrAt (s : State) (va : Word) : Option Instr :=
  if s.delivers va && !s.unknownWord va then
    match decodeWord (s.codeAt va) with
    | .instr i => some i
    | .reservedMajor | .reservedMinor | .unlisted | .truncated => none
  else none

/-- A fetch at the address delivers an instruction that writes HI or LO, or a word that is not known (log 40). -/
def State.mulDivAt (s : State) (va : Word) : Bool :=
  s.delivers va && (s.unknownWord va || (s.instrAt va).any writesHiLo)

/-- The state behind an instruction of the stream, as far as the fetch of the next one depends on it: MTC0 and RFE set the mode
(48_cp0.md R213, R214), a store writes memory. One that raises an exception or stops has no effect (log 40). -/
def State.behind (s : State) : Instr → State
  | .mtc0 rt rd => if s.cp0Denied then s else s.cp0Write rd (s.rt rt)
  | .rfe => if s.cp0Denied then s else s.popStatus
  | .sb rt offset base => s.stored (s.sbStore rt offset base)
  | .sh rt offset base => s.stored (s.shStore rt offset base)
  | .sw rt offset base => s.stored (s.swStore rt offset base)
  | .swl rt offset base => s.stored (s.swlStore rt offset base)
  | .swr rt offset base => s.stored (s.swrStore rt offset base)
  | _ => s

/-- Of the two instructions that come next in the stream, at `pc` and at `npc`, one writes HI or LO (R315): the second is fetched
in the mode and from the memory that the first one leaves. DESIGN CHOICE, unsafe, where the spec is silent: the first one counts as
run with no input asserted, also where a program-counter breakpoint or a trace condition with TR set, or an enabled software
interrupt that is pending, would stop it before it runs (log 40). -/
def State.streamWrites (s : State) : Bool :=
  s.mulDivAt s.pc ||
    match s.instrAt s.pc with
    | none => s.mulDivAt s.npc
    | some i => (State.behind { s with env := [] } i).mulDivAt s.npc

end Sys2Proof.Machine
end

