-- ==== Sys2Proof/Machine/Ops.lean ====
section
/-! DEFINITION. The shared operations over State: register writes and the end of a step (10_state.md R15 to R19), delayed
transfers, taking an exception and the return from one (60_exceptions.md R250, R255), and the accesses to memory with their
checks (40_load_store.md R100). -/

namespace Sys2Proof.Machine

/-! ### Registers and the end of a step -/

/-- The register file after a write; the write of x[0] is discarded (R11). -/
def gprSet (g : Vector Word 32) (i : RegIdx) (v : Word) : Vector Word 32 :=
  if i = 0 then g else g.set i.toNat v i.isLt

/-- The register file after the pending load has landed (R19 steps 7 and 8). -/
def landed (g : Vector Word 32) : Option PendingLoad → Vector Word 32
  | none => g
  | some p => gprSet g p.reg p.value

/-- `x[i] <- v`. -/
def State.setGpr (s : State) (i : RegIdx) (v : Word) : State := { s with gpr := gprSet s.gpr i v }

/-- `HI <- hi; LO <- lo`. -/
def State.setHiLo (s : State) (hi lo : Word) : State := { s with hi := hi, lo := lo }

/-- The pending load lands. -/
def State.land (s : State) : State := { s with gpr := landed s.gpr s.ld, ld := none }

/-- Sequential advance (R15), with `ds <- none` (R17). -/
def State.advance (s : State) : State := { s with pc := s.npc, npc := s.npc + 4, ds := none }

/-- The end of an instruction that writes no register: the pending load lands, the program counter advances. -/
def State.finish (s : State) : State := s.land.advance

/-- The end of an instruction that writes one general register in its own step: the pending load lands first, so the later
instruction wins (R19 step 7). -/
def State.writeBack (s : State) (rd : RegIdx) (v : Word) : State := (s.land.setGpr rd v).advance

/-- The end of a load: `ld <- (rt, v)`, discarded for x[0] (R18, R11; 40_load_store.md R101). -/
def State.loadBack (s : State) (rt : RegIdx) (v : Word) : State :=
  { s.land.advance with ld := if rt = 0 then none else some ⟨rt, v⟩ }

/-- The end of a jump or branch: delayed transfer and delay-slot record (R16, R17; 45_jump_branch.md R170). -/
def State.transfer (s : State) (taken : Bool) (target : Word) : State :=
  { s.land with
    pc := s.npc
    npc := if taken then target else s.npc + 4
    ds := some ⟨s.pc, taken, target⟩ }

/-- A jump or branch without link; in a delay slot it stops (R171). -/
def jumpOrBranch (s : State) (taken : Bool) (target : Word) : Result :=
  if s.ds.isSome then .fault .branchInDelaySlot else .next (s.transfer taken target)

/-- A jump or branch that writes the link value `pc + 8` to a register, taken or not (R170, R183). -/
def jumpOrBranchLink (s : State) (rd : RegIdx) (taken : Bool) (target : Word) : Result :=
  if s.ds.isSome then .fault .branchInDelaySlot else .next ((s.transfer taken target).setGpr rd s.linkValue)

/-! ### Exceptions (60_exceptions.md) -/

/-- The exceptions of Table 4.1 other than Reset (R230), with what they record. -/
inductive Exc where
  | int
  | adEL (a : Word)
  | adES (a : Word)
  | ibe
  | dbe
  | sys
  | bp
  | ri
  | cpU (z : BitVec 2)
  | ovf
  | debug
deriving DecidableEq, Repr

/-- `excCode(E)` (R231); Debug uses the Bp code (R274). -/
def Exc.code (c : ExcCodes) : Exc → BitVec 4
  | .int => c.int
  | .adEL _ => c.adEL
  | .adES _ => c.adES
  | .ibe => c.ibe
  | .dbe => c.dbe
  | .sys => c.sys
  | .bp => c.bp
  | .ri => c.ri
  | .cpU _ => c.cpU
  | .ovf => c.ovf
  | .debug => c.bp

/-- `vector(E, SR.BEV)` (R252). -/
def Exc.vector (bev : Bool) : Exc → Word
  | .debug => if bev then 0xBFC00140 else 0x80000040
  | .int | .adEL _ | .adES _ | .ibe | .dbe | .sys | .bp | .ri | .cpU _ | .ovf =>
    if bev then 0xBFC00180 else 0x80000080

/-- `Cause.CE` after entry: the coprocessor number of CpU, else the draw (R250). -/
def Exc.ce (draw : BitVec 2) : Exc → BitVec 2
  | .cpU z => z
  | .int | .adEL _ | .adES _ | .ibe | .dbe | .sys | .bp | .ri | .ovf | .debug => draw

/-- `BadA` after entry: the address of AdEL and AdES, else unchanged (R250). -/
def Exc.badAddress (old : Word) : Exc → Word
  | .adEL a | .adES a => a
  | .int | .ibe | .dbe | .sys | .bp | .ri | .cpU _ | .ovf | .debug => old

/-- `EPC` after entry (R250, R253). -/
def restartAddress (pc : Word) : Option DelaySlot → Word
  | some d => d.bpc
  | none => pc

/-- `Cause.BT` after entry (R250). -/
def branchTaken (draw : Bool) : Option DelaySlot → Bool
  | some d => d.taken
  | none => draw

/-- `TAR` after entry (R250). -/
def branchTargetOf (draw : Word) : Option DelaySlot → Word
  | some d => if d.taken then d.target else draw
  | none => draw

/-- Taking an exception (R19 step 8, R250). Where one of the instructions that the pipeline had begun may have altered HI and LO
(`altered`), they become free values (70_reset_and_hazards.md R315). -/
def State.enterException (s : State) (e : Exc) (altered : Bool) : State :=
  { s with
    gpr := landed s.gpr s.ld
    ld := none
    hi := if altered then Config.drawHI s.draws else s.hi
    lo := if altered then Config.drawLO s.draws else s.lo
    epc := restartAddress s.pc s.ds
    tar := branchTargetOf (Config.drawTAR s.draws) s.ds
    badA := e.badAddress s.badA
    cause :=
      { s.cause with
        bd := s.ds.isSome
        bt := branchTaken (Config.drawBT s.draws) s.ds
        ce := e.ce (Config.drawCE s.draws)
        excCode := e.code s.params.excCode }
    sr := s.sr.pushed
    pc := e.vector s.sr.bev
    npc := e.vector s.sr.bev + 4
    ds := none
    entered := true }

/-- The state behind the instruction at `pc` in the stream where that instruction has no effect: the two begun behind it stand
at `npc` and at `second` (R315). -/
def State.skipped (s : State) (second : Word) : State := { s.land with pc := s.npc, npc := second, ds := none }

/-- `raise E` for an exception of the instruction at `pc` that is no jump or branch: the two instructions after it in the
stream, which are the ones begun, stand at `npc` and behind it (R315). -/
def raise (e : Exc) (s : State) : Result := .next (s.enterException e (s.skipped (s.npc + 4)).streamWrites)

/-- `raise E` for an exception of a branch: of the two instructions after it in the stream the second stands at the target
where the branch would be taken (R315; log 40). -/
def raiseAtBranch (e : Exc) (s : State) (taken : Bool) (target : Word) : Result :=
  .next (s.enterException e (s.skipped (if taken then target else s.npc + 4)).streamWrites)

/-- The usability test of CTC0, CFC0 and COP0 (47_coprocessor.md R196). -/
def State.cop0Usable (s : State) : Bool := !s.sr.kuc || s.sr.usable 0

/-! ### Data accesses (40_load_store.md R100) -/

/-- A parity error is logged in `SR.PE` (10_state.md R26, 20_memory.md R64). -/
def State.noteParity (s : State) (detected : Bool) : State :=
  { s with sr := { s.sr with pe := s.sr.pe || detected } }

/-- A load of `value` into `rt` for the effective address `va`, which reads the bytes of `span` (the first address and their
number), with the checks and the transaction of R100 in their order. -/
def loadAccess (s : State) (va : Word) (aligned : Bool) (span : Word × Nat) (rt : RegIdx) (value : Word) : Result :=
  if !aligned || s.segmentDenied va then raise (.adEL va) s
  else if s.sr.isC then .refused .isolatedCache
  else if s.daHit va false && s.dcic.tr then raise .debug (s.postDataDebug va false)
  else if s.dataBerr false span.1 span.2 then raise .dbe ((s.postDataDebug va false).noteParity s.now.parityData)
  else .next (((s.postDataDebug va false).noteParity s.now.parityData).loadBack rt value)

/-- A store, with the checks of R100 in their order. -/
def storeAccess (s : State) (o : StoreOp) : Result :=
  if !o.aligned || s.segmentDenied o.va then raise (.adES o.va) s
  else if s.sr.isC then .refused .isolatedCache
  else if s.daHit o.va true && s.dcic.tr then raise .debug (s.postDataDebug o.va true)
  else .next (((s.postDataDebug o.va true).store o.first o.bytes).finish)

/-! ### Coprocessor instructions (47_coprocessor.md) -/

/-- A coprocessor instruction that is not implemented: CpU where the unit is not usable; where it is, the spec gives no
effect (R195 to R203, D29; log 29). -/
def unimplementedCop (s : State) (z : BitVec 2) (usable : Bool) : Result :=
  if usable then .refused (.unimplementedCoprocessor z) else raise (.cpU z) s

/-- The condition of BCzT (`sense` true) and BCzF (`sense` false): the line CPC[z] has that value (R204, R205). -/
def State.copCondition (s : State) (z : BitVec 2) (sense : Bool) : Bool := s.now.cpc.getLsbD z.toNat == sense

/-- BCzT and BCzF (R204, R205): the usability test comes before anything else (R196, 30_encoding.md R83 step 4); in a delay
slot the branch stops (45_jump_branch.md R171). -/
def copBranch (s : State) (z : BitVec 2) (sense : Bool) (offset : BitVec 16) : Result :=
  if !s.sr.usable z then raiseAtBranch (.cpU z) s (s.copCondition z sense) (s.branchTarget offset)
  else jumpOrBranch s (s.copCondition z sense) (s.branchTarget offset)

end Sys2Proof.Machine
end

