-- ==== Sys2Proof/Machine/AluImmediate.lean ====
section
/-! DEFINITION. ALU immediate instructions (41_alu_immediate.md R120 to R128). -/

namespace Sys2Proof.Machine

/-- ADDI (41_alu_immediate.md R121): Ovf on signed overflow. -/
def execAddi (rt rs : RegIdx) (imm : BitVec 16) (s : State) : Result :=
  if addOverflows (s.rs rs) (signImm imm) then raise .ovf s
  else .next (s.writeBack rt (s.rs rs + signImm imm))

/-- ADDIU (R122). -/
def execAddiu (rt rs : RegIdx) (imm : BitVec 16) (s : State) : Result :=
  .next (s.writeBack rt (s.rs rs + signImm imm))

/-- SLTI (R123). -/
def execSlti (rt rs : RegIdx) (imm : BitVec 16) (s : State) : Result :=
  .next (s.writeBack rt (truth (lessSigned (s.rs rs) (signImm imm))))

/-- SLTIU (R124). -/
def execSltiu (rt rs : RegIdx) (imm : BitVec 16) (s : State) : Result :=
  .next (s.writeBack rt (truth (lessUnsigned (s.rs rs) (signImm imm))))

/-- ANDI (R125). -/
def execAndi (rt rs : RegIdx) (imm : BitVec 16) (s : State) : Result :=
  .next (s.writeBack rt (s.rs rs &&& zeroImm imm))

/-- ORI (R126). -/
def execOri (rt rs : RegIdx) (imm : BitVec 16) (s : State) : Result :=
  .next (s.writeBack rt (s.rs rs ||| zeroImm imm))

/-- XORI (R127). -/
def execXori (rt rs : RegIdx) (imm : BitVec 16) (s : State) : Result :=
  .next (s.writeBack rt (s.rs rs ^^^ zeroImm imm))

/-- LUI (R128): no load delay. -/
def execLui (rt : RegIdx) (imm : BitVec 16) (s : State) : Result :=
  .next (s.writeBack rt (upperImm imm))

end Sys2Proof.Machine
end

