-- ==== Sys2Proof/Machine/AluRegister.lean ====
section
/-! DEFINITION. Three-operand register instructions (42_alu_register.md R130 to R140). -/

namespace Sys2Proof.Machine

/-- ADD (42_alu_register.md R131): Ovf on signed overflow. -/
def execAdd (rd rs rt : RegIdx) (s : State) : Result :=
  if addOverflows (s.rs rs) (s.rt rt) then raise .ovf s
  else .next (s.writeBack rd (s.rs rs + s.rt rt))

/-- ADDU (R132). -/
def execAddu (rd rs rt : RegIdx) (s : State) : Result :=
  .next (s.writeBack rd (s.rs rs + s.rt rt))

/-- SUB (R133): Ovf on signed overflow. -/
def execSub (rd rs rt : RegIdx) (s : State) : Result :=
  if subOverflows (s.rs rs) (s.rt rt) then raise .ovf s
  else .next (s.writeBack rd (s.rs rs - s.rt rt))

/-- SUBU (R134). -/
def execSubu (rd rs rt : RegIdx) (s : State) : Result :=
  .next (s.writeBack rd (s.rs rs - s.rt rt))

/-- SLT (R135). -/
def execSlt (rd rs rt : RegIdx) (s : State) : Result :=
  .next (s.writeBack rd (truth (lessSigned (s.rs rs) (s.rt rt))))

/-- SLTU (R136). -/
def execSltu (rd rs rt : RegIdx) (s : State) : Result :=
  .next (s.writeBack rd (truth (lessUnsigned (s.rs rs) (s.rt rt))))

/-- AND (R137). -/
def execAnd (rd rs rt : RegIdx) (s : State) : Result :=
  .next (s.writeBack rd (s.rs rs &&& s.rt rt))

/-- OR (R138). -/
def execOr (rd rs rt : RegIdx) (s : State) : Result :=
  .next (s.writeBack rd (s.rs rs ||| s.rt rt))

/-- XOR (R139). -/
def execXor (rd rs rt : RegIdx) (s : State) : Result :=
  .next (s.writeBack rd (s.rs rs ^^^ s.rt rt))

/-- NOR (R140). -/
def execNor (rd rs rt : RegIdx) (s : State) : Result :=
  .next (s.writeBack rd (~~~(s.rs rs ||| s.rt rt)))

end Sys2Proof.Machine
end

