-- ==== Sys2Proof/Machine/Coprocessor.lean ====
section
/-! DEFINITION. Coprocessor instructions but MTC0, MFC0, RFE and the TLB ones (47_coprocessor.md R195 to R208). -/

namespace Sys2Proof.Machine

/-- MFC1 (47_coprocessor.md R200): not implemented. -/
def execMfc1 (_rt _rd : RegIdx) (s : State) : Result :=
  unimplementedCop s 1 (s.sr.usable 1)

/-- CFC1 (47_coprocessor.md R202): not implemented. -/
def execCfc1 (_rt _rd : RegIdx) (s : State) : Result :=
  unimplementedCop s 1 (s.sr.usable 1)

/-- MTC1 (47_coprocessor.md R199): not implemented. -/
def execMtc1 (_rt _rd : RegIdx) (s : State) : Result :=
  unimplementedCop s 1 (s.sr.usable 1)

/-- CTC1 (47_coprocessor.md R201): not implemented. -/
def execCtc1 (_rt _rd : RegIdx) (s : State) : Result :=
  unimplementedCop s 1 (s.sr.usable 1)

/-- COP1 (47_coprocessor.md R203): not implemented. -/
def execCop1 (_cofun : BitVec 25) (s : State) : Result :=
  unimplementedCop s 1 (s.sr.usable 1)

/-- LWC1 (47_coprocessor.md R197): not implemented. -/
def execLwc1 (_rt : RegIdx) (_offset : BitVec 16) (_base : RegIdx) (s : State) : Result :=
  unimplementedCop s 1 (s.sr.usable 1)

/-- SWC1 (47_coprocessor.md R198): not implemented. -/
def execSwc1 (_rt : RegIdx) (_offset : BitVec 16) (_base : RegIdx) (s : State) : Result :=
  unimplementedCop s 1 (s.sr.usable 1)

/-- MFC2 (47_coprocessor.md R200): not implemented. -/
def execMfc2 (_rt _rd : RegIdx) (s : State) : Result :=
  unimplementedCop s 2 (s.sr.usable 2)

/-- CFC2 (47_coprocessor.md R202): not implemented. -/
def execCfc2 (_rt _rd : RegIdx) (s : State) : Result :=
  unimplementedCop s 2 (s.sr.usable 2)

/-- MTC2 (47_coprocessor.md R199): not implemented. -/
def execMtc2 (_rt _rd : RegIdx) (s : State) : Result :=
  unimplementedCop s 2 (s.sr.usable 2)

/-- CTC2 (47_coprocessor.md R201): not implemented. -/
def execCtc2 (_rt _rd : RegIdx) (s : State) : Result :=
  unimplementedCop s 2 (s.sr.usable 2)

/-- COP2 (47_coprocessor.md R203): not implemented. -/
def execCop2 (_cofun : BitVec 25) (s : State) : Result :=
  unimplementedCop s 2 (s.sr.usable 2)

/-- LWC2 (47_coprocessor.md R197): not implemented. -/
def execLwc2 (_rt : RegIdx) (_offset : BitVec 16) (_base : RegIdx) (s : State) : Result :=
  unimplementedCop s 2 (s.sr.usable 2)

/-- SWC2 (47_coprocessor.md R198): not implemented. -/
def execSwc2 (_rt : RegIdx) (_offset : BitVec 16) (_base : RegIdx) (s : State) : Result :=
  unimplementedCop s 2 (s.sr.usable 2)

/-- MFC3 (47_coprocessor.md R200): not implemented. -/
def execMfc3 (_rt _rd : RegIdx) (s : State) : Result :=
  unimplementedCop s 3 (s.sr.usable 3)

/-- CFC3 (47_coprocessor.md R202): not implemented. -/
def execCfc3 (_rt _rd : RegIdx) (s : State) : Result :=
  unimplementedCop s 3 (s.sr.usable 3)

/-- MTC3 (47_coprocessor.md R199): not implemented. -/
def execMtc3 (_rt _rd : RegIdx) (s : State) : Result :=
  unimplementedCop s 3 (s.sr.usable 3)

/-- CTC3 (47_coprocessor.md R201): not implemented. -/
def execCtc3 (_rt _rd : RegIdx) (s : State) : Result :=
  unimplementedCop s 3 (s.sr.usable 3)

/-- COP3 (47_coprocessor.md R203): not implemented. -/
def execCop3 (_cofun : BitVec 25) (s : State) : Result :=
  unimplementedCop s 3 (s.sr.usable 3)

/-- LWC3 (47_coprocessor.md R197): not implemented. -/
def execLwc3 (_rt : RegIdx) (_offset : BitVec 16) (_base : RegIdx) (s : State) : Result :=
  unimplementedCop s 3 (s.sr.usable 3)

/-- SWC3 (47_coprocessor.md R198): not implemented. -/
def execSwc3 (_rt : RegIdx) (_offset : BitVec 16) (_base : RegIdx) (s : State) : Result :=
  unimplementedCop s 3 (s.sr.usable 3)

/-- CFC0 (R202): not implemented. -/
def execCfc0 (_rt _rd : RegIdx) (s : State) : Result :=
  unimplementedCop s 0 s.cop0Usable

/-- CTC0 (R201): not implemented. -/
def execCtc0 (_rt _rd : RegIdx) (s : State) : Result :=
  unimplementedCop s 0 s.cop0Usable

/-- COP0 (R203): not implemented. -/
def execCop0 (_cofun : BitVec 25) (s : State) : Result :=
  unimplementedCop s 0 s.cop0Usable

/-- LWC0 (R208): undefined in every mode. -/
def execLwc0 (_rt : RegIdx) (_offset : BitVec 16) (_base : RegIdx) (_s : State) : Result :=
  .refused .undefinedCoprocessor0Transfer

/-- SWC0 (R208): undefined in every mode. -/
def execSwc0 (_rt : RegIdx) (_offset : BitVec 16) (_base : RegIdx) (_s : State) : Result :=
  .refused .undefinedCoprocessor0Transfer

/-- BC0F (R205). -/
def execBc0f (offset : BitVec 16) (s : State) : Result :=
  copBranch s 0 false offset

/-- BC0T (R204). -/
def execBc0t (offset : BitVec 16) (s : State) : Result :=
  copBranch s 0 true offset

/-- BC1F (R205). -/
def execBc1f (offset : BitVec 16) (s : State) : Result :=
  copBranch s 1 false offset

/-- BC1T (R204). -/
def execBc1t (offset : BitVec 16) (s : State) : Result :=
  copBranch s 1 true offset

/-- BC2F (R205). -/
def execBc2f (offset : BitVec 16) (s : State) : Result :=
  copBranch s 2 false offset

/-- BC2T (R204). -/
def execBc2t (offset : BitVec 16) (s : State) : Result :=
  copBranch s 2 true offset

/-- BC3F (R205). -/
def execBc3f (offset : BitVec 16) (s : State) : Result :=
  copBranch s 3 false offset

/-- BC3T (R204). -/
def execBc3t (offset : BitVec 16) (s : State) : Result :=
  copBranch s 3 true offset

end Sys2Proof.Machine
end

