-- ==== Sys2Proof/Machine/Cp0.lean ====
section
/-! DEFINITION. Coprocessor 0 moves, RFE and the TLB instructions (48_cp0.md R210 to R219). -/

namespace Sys2Proof.Machine

/-- MFC0 (48_cp0.md R212): a delayed load of the CP0 register; registers 16 to 31 are a no-operation (R211). -/
def execMfc0 (rt rd : RegIdx) (s : State) : Result :=
  if s.cp0Denied || tlbRegister rd then raise .ri s
  else
    match s.cp0Read rd with
    | some v => .next (s.loadBack rt v)
    | none => .next s.finish

/-- MTC0 (R213): acts on the next instruction (log 22). -/
def execMtc0 (rt rd : RegIdx) (s : State) : Result :=
  if s.cp0Denied || tlbRegister rd then raise .ri s
  else .next (s.cp0Write rd (s.rt rt)).finish

/-- RFE (R214): the return from an exception pops the status stack and does not jump (60_exceptions.md R255). -/
def execRfe (s : State) : Result :=
  if s.cp0Denied then raise .ri s else .next s.popStatus.finish

/-- TLBR (R216): RI in every mode. -/
def execTlbr (s : State) : Result :=
  raise .ri s

/-- TLBWI (R216): RI in every mode. -/
def execTlbwi (s : State) : Result :=
  raise .ri s

/-- TLBWR (R216): RI in every mode. -/
def execTlbwr (s : State) : Result :=
  raise .ri s

/-- TLBP (R216): RI in every mode. -/
def execTlbp (s : State) : Result :=
  raise .ri s

end Sys2Proof.Machine
end

