-- ==== Sys2Proof/Machine/JumpBranch.lean ====
section
/-! DEFINITION. Jumps and branches (45_jump_branch.md R170 to R187). -/

namespace Sys2Proof.Machine

/-- J (45_jump_branch.md R172). -/
def execJ (target : BitVec 26) (s : State) : Result :=
  jumpOrBranch s true (s.jumpTarget target)

/-- JAL (R173). -/
def execJal (target : BitVec 26) (s : State) : Result :=
  jumpOrBranchLink s 31 true (s.jumpTarget target)

/-- JR (R174). -/
def execJr (rs : RegIdx) (s : State) : Result :=
  jumpOrBranch s true (s.rs rs)

/-- JALR (R175): `x[rs]` is read before `x[rd]` is written (log 35). -/
def execJalr (rs rd : RegIdx) (s : State) : Result :=
  jumpOrBranchLink s rd true (s.rs rs)

/-- BEQ (R177). -/
def execBeq (rs rt : RegIdx) (offset : BitVec 16) (s : State) : Result :=
  jumpOrBranch s (s.rs rs == s.rt rt) (s.branchTarget offset)

/-- BNE (R178). -/
def execBne (rs rt : RegIdx) (offset : BitVec 16) (s : State) : Result :=
  jumpOrBranch s (s.rs rs != s.rt rt) (s.branchTarget offset)

/-- BLEZ (R179). -/
def execBlez (rs : RegIdx) (offset : BitVec 16) (s : State) : Result :=
  jumpOrBranch s (decide ((s.rs rs).toInt ≤ 0)) (s.branchTarget offset)

/-- BGTZ (R180). -/
def execBgtz (rs : RegIdx) (offset : BitVec 16) (s : State) : Result :=
  jumpOrBranch s (decide ((s.rs rs).toInt > 0)) (s.branchTarget offset)

/-- BLTZ (R181). -/
def execBltz (rs : RegIdx) (offset : BitVec 16) (s : State) : Result :=
  jumpOrBranch s ((s.rs rs).getLsbD 31) (s.branchTarget offset)

/-- BGEZ (R182). -/
def execBgez (rs : RegIdx) (offset : BitVec 16) (s : State) : Result :=
  jumpOrBranch s (!(s.rs rs).getLsbD 31) (s.branchTarget offset)

/-- BLTZAL (R183): the condition is read before x[31] is written, and the link is written whether taken or not. -/
def execBltzal (rs : RegIdx) (offset : BitVec 16) (s : State) : Result :=
  jumpOrBranchLink s 31 ((s.rs rs).getLsbD 31) (s.branchTarget offset)

/-- BGEZAL (R184): the condition is read before x[31] is written, and the link is written whether taken or not. -/
def execBgezal (rs : RegIdx) (offset : BitVec 16) (s : State) : Result :=
  jumpOrBranchLink s 31 (!(s.rs rs).getLsbD 31) (s.branchTarget offset)

end Sys2Proof.Machine
end

