-- ==== Sys2Proof/Machine/LoadStore.lean ====
section
/-! DEFINITION. Loads and stores (40_load_store.md R100 to R114). -/

namespace Sys2Proof.Machine

/-- LB (40_load_store.md R102). -/
def execLb (rt : RegIdx) (offset : BitVec 16) (base : RegIdx) (s : State) : Result :=
  let va := s.address base offset
  loadAccess s va true (va, 1) rt ((s.byteAt va).signExtend 32)

/-- LBU (40_load_store.md R103). -/
def execLbu (rt : RegIdx) (offset : BitVec 16) (base : RegIdx) (s : State) : Result :=
  let va := s.address base offset
  loadAccess s va true (va, 1) rt ((s.byteAt va).zeroExtend 32)

/-- LH (40_load_store.md R104). -/
def execLh (rt : RegIdx) (offset : BitVec 16) (base : RegIdx) (s : State) : Result :=
  let va := s.address base offset
  loadAccess s va (halfAligned va) (va, 2) rt ((s.halfAt va).signExtend 32)

/-- LHU (40_load_store.md R105). -/
def execLhu (rt : RegIdx) (offset : BitVec 16) (base : RegIdx) (s : State) : Result :=
  let va := s.address base offset
  loadAccess s va (halfAligned va) (va, 2) rt ((s.halfAt va).zeroExtend 32)

/-- LW (40_load_store.md R106). -/
def execLw (rt : RegIdx) (offset : BitVec 16) (base : RegIdx) (s : State) : Result :=
  let va := s.address base offset
  loadAccess s va (wordAligned va) (va, 4) rt (s.wordAt va)

/-- LWL (R107): no alignment constraint; merges with the old value, or with the pending load's (10_state.md R18). -/
def execLwl (rt : RegIdx) (offset : BitVec 16) (base : RegIdx) (s : State) : Result :=
  let va := s.address base offset
  loadAccess s va true (leftSpan s.params.bigEndian va) rt (lwlMerge s.params.bigEndian va (s.wordAt (alignedWord va)) (s.settled rt))

/-- LWR (R108): as LWL. -/
def execLwr (rt : RegIdx) (offset : BitVec 16) (base : RegIdx) (s : State) : Result :=
  let va := s.address base offset
  loadAccess s va true (rightSpan s.params.bigEndian va) rt (lwrMerge s.params.bigEndian va (s.wordAt (alignedWord va)) (s.settled rt))

/-- SB (R109). -/
def execSb (rt : RegIdx) (offset : BitVec 16) (base : RegIdx) (s : State) : Result :=
  storeAccess s (s.sbStore rt offset base)

/-- SH (R110). -/
def execSh (rt : RegIdx) (offset : BitVec 16) (base : RegIdx) (s : State) : Result :=
  storeAccess s (s.shStore rt offset base)

/-- SW (R111). -/
def execSw (rt : RegIdx) (offset : BitVec 16) (base : RegIdx) (s : State) : Result :=
  storeAccess s (s.swStore rt offset base)

/-- SWL (R112): no alignment constraint; writes only the bytes of 20_memory.md R58. -/
def execSwl (rt : RegIdx) (offset : BitVec 16) (base : RegIdx) (s : State) : Result :=
  storeAccess s (s.swlStore rt offset base)

/-- SWR (R113): as SWL. -/
def execSwr (rt : RegIdx) (offset : BitVec 16) (base : RegIdx) (s : State) : Result :=
  storeAccess s (s.swrStore rt offset base)

end Sys2Proof.Machine
end

