-- ==== Sys2Proof/Machine/MultiplyDivide.lean ====
section
/-! DEFINITION. Multiply and divide (44_multiply_divide.md R155 to R166). -/

namespace Sys2Proof.Machine

/-- The signed product modulo 2^64 (R156). -/
def mulSigned (a b : Word) : BitVec 64 := BitVec.ofInt 64 (a.toInt * b.toInt)

/-- The unsigned product (R157). -/
def mulUnsigned (a b : Word) : BitVec 64 := BitVec.ofNat 64 (a.toNat * b.toNat)

/-- `P[63:32]`. -/
def highWord (p : BitVec 64) : Word := p.extractLsb' 32 32

/-- `P[31:0]`. -/
def lowWord (p : BitVec 64) : Word := p.extractLsb' 0 32

/-- (LO, HI) of DIV (R158): quotient rounded toward zero, remainder with the sign of the dividend (log 46); `divSpecial`
(R166) where the spec gives no result. -/
def divSigned (n d : Word) : Word × Word :=
  if d.toInt = 0 ∨ (n.toInt = -2 ^ 31 ∧ d.toInt = -1) then Config.divSpecial true n d
  else (BitVec.ofInt 32 (n.toInt.tdiv d.toInt), BitVec.ofInt 32 (n.toInt.tmod d.toInt))

/-- (LO, HI) of DIVU (R159). -/
def divUnsigned (n d : Word) : Word × Word :=
  if d.toNat = 0 then Config.divSpecial false n d
  else (BitVec.ofNat 32 (n.toNat / d.toNat), BitVec.ofNat 32 (n.toNat % d.toNat))

/-- MULT (44_multiply_divide.md R156). -/
def execMult (rs rt : RegIdx) (s : State) : Result :=
  let p := mulSigned (s.rs rs) (s.rt rt)
  .next (s.setHiLo (highWord p) (lowWord p)).finish

/-- MULTU (R157). -/
def execMultu (rs rt : RegIdx) (s : State) : Result :=
  let p := mulUnsigned (s.rs rs) (s.rt rt)
  .next (s.setHiLo (highWord p) (lowWord p)).finish

/-- DIV (R158). -/
def execDiv (rs rt : RegIdx) (s : State) : Result :=
  let q := divSigned (s.rs rs) (s.rt rt)
  .next (s.setHiLo q.2 q.1).finish

/-- DIVU (R159). -/
def execDivu (rs rt : RegIdx) (s : State) : Result :=
  let q := divUnsigned (s.rs rs) (s.rt rt)
  .next (s.setHiLo q.2 q.1).finish

/-- MFHI (R160): no load delay. -/
def execMfhi (rd : RegIdx) (s : State) : Result :=
  .next (s.writeBack rd s.hi)

/-- MFLO (R161): no load delay. -/
def execMflo (rd : RegIdx) (s : State) : Result :=
  .next (s.writeBack rd s.lo)

/-- MTHI (R162). -/
def execMthi (rs : RegIdx) (s : State) : Result :=
  .next (s.setHiLo (s.rs rs) s.lo).finish

/-- MTLO (R163). -/
def execMtlo (rs : RegIdx) (s : State) : Result :=
  .next (s.setHiLo s.hi (s.rs rs)).finish

end Sys2Proof.Machine
end

