-- ==== Sys2Proof/Machine/Shift.lean ====
section
/-! DEFINITION. Shifts (43_shift.md R145 to R152). -/

namespace Sys2Proof.Machine

/-- SLL (43_shift.md R146). -/
def execSll (rd rt : RegIdx) (shamt : BitVec 5) (s : State) : Result :=
  .next (s.writeBack rd (s.rt rt <<< shamt.toNat))

/-- SRL (43_shift.md R147). -/
def execSrl (rd rt : RegIdx) (shamt : BitVec 5) (s : State) : Result :=
  .next (s.writeBack rd (s.rt rt >>> shamt.toNat))

/-- SRA (43_shift.md R148). -/
def execSra (rd rt : RegIdx) (shamt : BitVec 5) (s : State) : Result :=
  .next (s.writeBack rd ((s.rt rt).sshiftRight shamt.toNat))

/-- SLLV (43_shift.md R149): the count is the low five bits of `x[rs]`. -/
def execSllv (rd rt rs : RegIdx) (s : State) : Result :=
  .next (s.writeBack rd (s.rt rt <<< shiftCount (s.rs rs)))

/-- SRLV (43_shift.md R150): the count is the low five bits of `x[rs]`. -/
def execSrlv (rd rt rs : RegIdx) (s : State) : Result :=
  .next (s.writeBack rd (s.rt rt >>> shiftCount (s.rs rs)))

/-- SRAV (43_shift.md R151): the count is the low five bits of `x[rs]`. -/
def execSrav (rd rt rs : RegIdx) (s : State) : Result :=
  .next (s.writeBack rd ((s.rt rt).sshiftRight (shiftCount (s.rs rs))))

end Sys2Proof.Machine
end

