-- ==== Sys2Proof/Machine/Special.lean ====
section
/-! DEFINITION. SYSCALL and BREAK (46_special.md R190 to R193). -/

namespace Sys2Proof.Machine

/-- SYSCALL (46_special.md R191): `code` is not examined (log 36). -/
def execSyscall (_code : BitVec 20) (s : State) : Result :=
  raise .sys s

/-- BREAK (R192): `code` is not examined. -/
def execBreak (_code : BitVec 20) (s : State) : Result :=
  raise .bp s

end Sys2Proof.Machine
end

