-- ==== Sys2Proof/Machine/Cycle.lean ====
section
/-! DEFINITION. One step of the machine around the meanings: reset, fetch, decode, asynchronous events and the end of the
step (10_state.md R19; 60_exceptions.md R245). -/

namespace Sys2Proof.Machine

/-- The instruction ends at decode, in an exception or, for a jump or branch in a delay slot, in a stop, so that it ranks
before the asynchronous events (R19 step 5, R245 item 3; log 16). -/
def decodeStops (i : Instr) (s : State) : Bool :=
  match i with
  | .syscall _ | .brk _ | .tlbr | .tlbwi | .tlbwr | .tlbp => true
  | .mfc0 _ rd => s.cp0Denied || tlbRegister rd
  | .mtc0 _ rd => s.cp0Denied || tlbRegister rd
  | .rfe => s.cp0Denied
  | .cfc0 _ _ | .ctc0 _ _ | .cop0 _ => !s.cop0Usable
  | .mfc1 _ _ | .cfc1 _ _ | .mtc1 _ _ | .ctc1 _ _ | .cop1 _ | .lwc1 _ _ _ | .swc1 _ _ _ => !s.sr.usable 1
  | .mfc2 _ _ | .cfc2 _ _ | .mtc2 _ _ | .ctc2 _ _ | .cop2 _ | .lwc2 _ _ _ | .swc2 _ _ _ => !s.sr.usable 2
  | .mfc3 _ _ | .cfc3 _ _ | .mtc3 _ _ | .ctc3 _ _ | .cop3 _ | .lwc3 _ _ _ | .swc3 _ _ _ => !s.sr.usable 3
  | .bc0f _ | .bc0t _ => !s.sr.usable 0 || s.ds.isSome
  | .bc1f _ | .bc1t _ => !s.sr.usable 1 || s.ds.isSome
  | .bc2f _ | .bc2t _ => !s.sr.usable 2 || s.ds.isSome
  | .bc3f _ | .bc3t _ => !s.sr.usable 3 || s.ds.isSome
  | .jr _ | .jalr _ _ | .bltz _ _ | .bgez _ _ | .bltzal _ _ | .bgezal _ _ | .j _ | .jal _ | .beq _ _ _
  | .bne _ _ _ | .blez _ _ | .bgtz _ _ => s.ds.isSome
  | .sll _ _ _ | .srl _ _ _ | .sra _ _ _ | .sllv _ _ _ | .srlv _ _ _ | .srav _ _ _ | .mfhi _ | .mthi _ | .mflo _
  | .mtlo _ | .mult _ _ | .multu _ _ | .div _ _ | .divu _ _ | .add _ _ _ | .addu _ _ _ | .sub _ _ _
  | .subu _ _ _ | .and _ _ _ | .or _ _ _ | .xor _ _ _ | .nor _ _ _ | .slt _ _ _ | .sltu _ _ _ | .addi _ _ _
  | .addiu _ _ _ | .slti _ _ _ | .sltiu _ _ _ | .andi _ _ _ | .ori _ _ _ | .xori _ _ _ | .lui _ _ | .lb _ _ _
  | .lh _ _ _ | .lwl _ _ _ | .lw _ _ _ | .lbu _ _ _ | .lhu _ _ _ | .lwr _ _ _ | .sb _ _ _ | .sh _ _ _
  | .swl _ _ _ | .sw _ _ _ | .swr _ _ _ | .lwc0 _ _ _ | .swc0 _ _ _ => false

/-- The state with every branch free to run: outside a delay slot, every unit usable. -/
def State.branchable (s : State) : State := { s with ds := none, sr := { s.sr with cu := 0xF } }

/-- The address of the second instruction after the one at `pc` in the stream, where the latter is not executed (R315): where a
jump or branch at `pc` would go, on an unusable unit or in a delay slot as well (log 40), else `npc + 4`. -/
def State.thirdAfter (s : State) (i : Instr) : Word :=
  match exec i s.branchable with
  | .next t => if t.ds.isSome then t.npc else s.npc + 4
  | .fault _ => s.npc + 4
  | .refused _ => s.npc + 4

/-- The state behind an instruction at `pc` in the stream (R315): after it, or past it where it ends in an exception or a stop. -/
def State.past (s : State) (i : Instr) : State :=
  match exec i s with
  | .next t => if t.entered then s.skipped (s.thirdAfter i) else t
  | .fault _ => s.skipped (s.thirdAfter i)
  | .refused _ => s.skipped (s.thirdAfter i)

/-- The two instructions behind the one at `pc`, which has not been fetched yet, may have altered HI and LO: where its word is not
known, neither is the stream (log 40). -/
def State.writesBehind (s : State) : Bool :=
  if s.fetchDenied s.pc || s.fetchBerr then (s.skipped (s.npc + 4)).streamWrites
  else if s.unknownWord s.pc then true
  else
    match decodeWord (s.codeAt s.pc) with
    | .instr i => (s.past i).streamWrites
    | .reservedMajor | .reservedMinor | .unlisted | .truncated => (s.skipped (s.npc + 4)).streamWrites

/-- An asynchronous event in place of an instruction: the instruction itself or one of the two behind it, all cancelled, may have
altered HI and LO (60_exceptions.md R241, R315). -/
def State.interruptAt (s : State) (e : Exc) (i : Instr) : Result :=
  .next (s.enterException e (writesHiLo i || (s.past i).streamWrites))

/-- Decode, asynchronous events, execution (R19 steps 5 to 6; R245 items 3 to 6) of an instruction that the decoder gave. -/
def runInstr (s : State) (i : Instr) : Result :=
  if decodeStops i s then exec i s
  else if s.storeErrorDue then { s with storeError := false }.interruptAt .dbe i
  else if s.interrupted then s.interruptAt .int i
  else exec i s

/-- What happens with the word fetched at `pc` (30_encoding.md R83, R88). -/
def runWord (s : State) (w : Word) : Result :=
  match decodeWord w with
  | .instr i => runInstr s i
  | .reservedMajor | .reservedMinor => raise .ri s
  | .unlisted | .truncated => .fault (.unlistedEncoding w)

/-- The state in which the fetch is made: the debug conditions of the fetch are posted (60_exceptions.md R275). -/
def State.atFetch (s : State) : State := { s.postFetchDebug with entered := false }

/-- Fetch (R19 step 4; R245 item 2). The Debug trap cancels the instruction at `pc`, which it restarts, and the two after it in
the stream (R315). DESIGN CHOICE, unsafe: where BERR ends a fetch of bytes that the run stored to, at a cacheable address, the
spec gives no order between IBE (R19 step 4) and the stop of R71, and the model takes IBE (log 49). -/
def fetchAndRun (s : State) : Result :=
  if s.traceHit && s.entered then .fault .traceAtExceptionVector
  else if (s.pcHit || s.traceHit) && s.dcic.tr then
    .next (s.atFetch.enterException .debug s.atFetch.writesBehind)
  else if s.fetchDenied s.pc then raise (.adEL s.pc) s.atFetch
  else if s.fetchBerr then raise .ibe (s.atFetch.noteParity s.now.parityFetch)
  else if s.staleCode s.pc then .fault .fetchAfterStoreToCode
  else runWord (s.atFetch.noteParity s.now.parityFetch) (s.codeAt s.pc)

/-- The inputs of this step are used up, and the next step's free values are new ones (log 38, log 41). -/
def State.tick (s : State) : State := { s with env := s.env.tail, draws := s.draws + 1 }

/-- The end of a step that began at `pc` (R19 step 9). -/
def State.endStep (s : State) (pc : Word) : State := { s.tick with lastpc := some pc }

/-- A register that a reset of this kind keeps (70_reset_and_hazards.md R301): unchanged by a warm reset; after a cold one
the value it holds in `State.reset`. -/
def ResetKind.keep (k : ResetKind) (old fresh : Word) : Word :=
  match k with
  | .cold => fresh
  | .warm => old

/-- The reset event (R300, R301; 10_state.md R42). The registers that it leaves undefined hold the values that
`State.reset` names (log 30, log 50). Memory, the store record and the configuration stay. -/
def State.applyReset (s : State) (k : ResetKind) : State :=
  { State.reset with
    epc := k.keep s.epc State.reset.epc
    tar := k.keep s.tar State.reset.tar
    bpc := k.keep s.bpc State.reset.bpc
    bda := k.keep s.bda State.reset.bda
    mem := s.mem
    failed := s.failed
    storedTo := s.storedTo
    params := s.params
    env := s.env
    draws := s.draws }

/-- One step (R19): nothing while RESET is asserted, the reset event when it is deasserted, else one instruction. -/
def cycle (s : State) : Result :=
  match s.now.reset with
  | some k => .next { s.tick with resetHeld := some k }
  | none =>
    match s.resetHeld with
    | some k => .next (s.applyReset k).tick
    | none =>
      match fetchAndRun s with
      | .next t => .next (t.endStep s.pc)
      | .fault f => .fault f
      | .refused r => .refused r

end Sys2Proof.Machine
end

