-- ==== Sys2Proof/Machine/Step.lean ====
section
/-! DEFINITION. The step, and the state in which the next step fetches a given instruction. -/

namespace Sys2Proof.Machine

/-- One step of the LR333x0 (10_state.md R19). -/
def step (s : State) : Host.Outcome State Fault Refusal := cycle s

/-- The state with an instruction word stored at the program counter, so that the next step fetches and runs it (log 44). -/
def State.withFetchWord (s : State) (nbits w : Nat) : State :=
  s.withWordAtPc (BitVec.ofNat 32 (w % 2 ^ nbits))

end Sys2Proof.Machine
end

