-- ==== Sys2Proof/OpcodeTable.lean ====
section
/-! DEFINITION. spec/opcode_table.json as data, in the terms of a fetched word (30_encoding.md R83 step 3): the rows in the
table's order, each with its mask, its match and the instruction made of the word's fields at the places of R81. Statements
compare the decoder with it. The values are the spec's general knowledge of MIPS I (R80; log 2). -/

namespace Sys2Proof

/-- A row of the table: a word `w` matches it where `w &&& mask = value`, and is then `instr`. -/
structure OpcodeRow where
  mask : Word
  value : Word
  instr : Instr
deriving DecidableEq, Repr

/-- `op` = 0, SPECIAL (R85). -/
def specialRows (w : Word) : List OpcodeRow :=
  let rd := w.extractLsb' 11 5
  let rt := w.extractLsb' 16 5
  let shamt := w.extractLsb' 6 5
  let rs := w.extractLsb' 21 5
  let code := w.extractLsb' 6 20
  [⟨0xFFE0003F, 0x00000000, .sll rd rt shamt⟩,
   ⟨0xFFE0003F, 0x00000002, .srl rd rt shamt⟩,
   ⟨0xFFE0003F, 0x00000003, .sra rd rt shamt⟩,
   ⟨0xFC0007FF, 0x00000004, .sllv rd rt rs⟩,
   ⟨0xFC0007FF, 0x00000006, .srlv rd rt rs⟩,
   ⟨0xFC0007FF, 0x00000007, .srav rd rt rs⟩,
   ⟨0xFC1FFFFF, 0x00000008, .jr rs⟩,
   ⟨0xFC1F07FF, 0x00000009, .jalr rs rd⟩,
   ⟨0xFC00003F, 0x0000000C, .syscall code⟩,
   ⟨0xFC00003F, 0x0000000D, .brk code⟩,
   ⟨0xFFFF07FF, 0x00000010, .mfhi rd⟩,
   ⟨0xFC1FFFFF, 0x00000011, .mthi rs⟩,
   ⟨0xFFFF07FF, 0x00000012, .mflo rd⟩,
   ⟨0xFC1FFFFF, 0x00000013, .mtlo rs⟩,
   ⟨0xFC00FFFF, 0x00000018, .mult rs rt⟩,
   ⟨0xFC00FFFF, 0x00000019, .multu rs rt⟩,
   ⟨0xFC00FFFF, 0x0000001A, .div rs rt⟩,
   ⟨0xFC00FFFF, 0x0000001B, .divu rs rt⟩,
   ⟨0xFC0007FF, 0x00000020, .add rd rs rt⟩,
   ⟨0xFC0007FF, 0x00000021, .addu rd rs rt⟩,
   ⟨0xFC0007FF, 0x00000022, .sub rd rs rt⟩,
   ⟨0xFC0007FF, 0x00000023, .subu rd rs rt⟩,
   ⟨0xFC0007FF, 0x00000024, .and rd rs rt⟩,
   ⟨0xFC0007FF, 0x00000025, .or rd rs rt⟩,
   ⟨0xFC0007FF, 0x00000026, .xor rd rs rt⟩,
   ⟨0xFC0007FF, 0x00000027, .nor rd rs rt⟩,
   ⟨0xFC0007FF, 0x0000002A, .slt rd rs rt⟩,
   ⟨0xFC0007FF, 0x0000002B, .sltu rd rs rt⟩]

/-- `op` = 0x01 to 0x0F: BCOND (R86), jumps, branches and immediate forms (R84). -/
def immediateRows (w : Word) : List OpcodeRow :=
  let rs := w.extractLsb' 21 5
  let offset := w.extractLsb' 0 16
  let target := w.extractLsb' 0 26
  let rt := w.extractLsb' 16 5
  let imm := w.extractLsb' 0 16
  [⟨0xFC1F0000, 0x04000000, .bltz rs offset⟩,
   ⟨0xFC1F0000, 0x04010000, .bgez rs offset⟩,
   ⟨0xFC1F0000, 0x04100000, .bltzal rs offset⟩,
   ⟨0xFC1F0000, 0x04110000, .bgezal rs offset⟩,
   ⟨0xFC000000, 0x08000000, .j target⟩,
   ⟨0xFC000000, 0x0C000000, .jal target⟩,
   ⟨0xFC000000, 0x10000000, .beq rs rt offset⟩,
   ⟨0xFC000000, 0x14000000, .bne rs rt offset⟩,
   ⟨0xFC1F0000, 0x18000000, .blez rs offset⟩,
   ⟨0xFC1F0000, 0x1C000000, .bgtz rs offset⟩,
   ⟨0xFC000000, 0x20000000, .addi rt rs imm⟩,
   ⟨0xFC000000, 0x24000000, .addiu rt rs imm⟩,
   ⟨0xFC000000, 0x28000000, .slti rt rs imm⟩,
   ⟨0xFC000000, 0x2C000000, .sltiu rt rs imm⟩,
   ⟨0xFC000000, 0x30000000, .andi rt rs imm⟩,
   ⟨0xFC000000, 0x34000000, .ori rt rs imm⟩,
   ⟨0xFC000000, 0x38000000, .xori rt rs imm⟩,
   ⟨0xFFE00000, 0x3C000000, .lui rt imm⟩]

/-- `op` = 0x10, COP0 (R87): the five operations stand before COP0. -/
def cop0Rows (w : Word) : List OpcodeRow :=
  let rt := w.extractLsb' 16 5
  let rd := w.extractLsb' 11 5
  let offset := w.extractLsb' 0 16
  let cofun := w.extractLsb' 0 25
  [⟨0xFFE007FF, 0x40000000, .mfc0 rt rd⟩,
   ⟨0xFFE007FF, 0x40800000, .mtc0 rt rd⟩,
   ⟨0xFFE007FF, 0x40400000, .cfc0 rt rd⟩,
   ⟨0xFFE007FF, 0x40C00000, .ctc0 rt rd⟩,
   ⟨0xFFFF0000, 0x41000000, .bc0f offset⟩,
   ⟨0xFFFF0000, 0x41010000, .bc0t offset⟩,
   ⟨0xFFFFFFFF, 0x42000001, .tlbr⟩,
   ⟨0xFFFFFFFF, 0x42000002, .tlbwi⟩,
   ⟨0xFFFFFFFF, 0x42000006, .tlbwr⟩,
   ⟨0xFFFFFFFF, 0x42000008, .tlbp⟩,
   ⟨0xFFFFFFFF, 0x42000010, .rfe⟩,
   ⟨0xFE000000, 0x42000000, .cop0 cofun⟩]

/-- `op` = 0x11 to 0x13, COP1 to COP3 (R87). -/
def copRows (w : Word) : List OpcodeRow :=
  let rt := w.extractLsb' 16 5
  let rd := w.extractLsb' 11 5
  let offset := w.extractLsb' 0 16
  let cofun := w.extractLsb' 0 25
  [⟨0xFFE007FF, 0x44000000, .mfc1 rt rd⟩,
   ⟨0xFFE007FF, 0x44400000, .cfc1 rt rd⟩,
   ⟨0xFFE007FF, 0x44800000, .mtc1 rt rd⟩,
   ⟨0xFFE007FF, 0x44C00000, .ctc1 rt rd⟩,
   ⟨0xFFFF0000, 0x45000000, .bc1f offset⟩,
   ⟨0xFFFF0000, 0x45010000, .bc1t offset⟩,
   ⟨0xFE000000, 0x46000000, .cop1 cofun⟩,
   ⟨0xFFE007FF, 0x48000000, .mfc2 rt rd⟩,
   ⟨0xFFE007FF, 0x48400000, .cfc2 rt rd⟩,
   ⟨0xFFE007FF, 0x48800000, .mtc2 rt rd⟩,
   ⟨0xFFE007FF, 0x48C00000, .ctc2 rt rd⟩,
   ⟨0xFFFF0000, 0x49000000, .bc2f offset⟩,
   ⟨0xFFFF0000, 0x49010000, .bc2t offset⟩,
   ⟨0xFE000000, 0x4A000000, .cop2 cofun⟩,
   ⟨0xFFE007FF, 0x4C000000, .mfc3 rt rd⟩,
   ⟨0xFFE007FF, 0x4C400000, .cfc3 rt rd⟩,
   ⟨0xFFE007FF, 0x4C800000, .mtc3 rt rd⟩,
   ⟨0xFFE007FF, 0x4CC00000, .ctc3 rt rd⟩,
   ⟨0xFFFF0000, 0x4D000000, .bc3f offset⟩,
   ⟨0xFFFF0000, 0x4D010000, .bc3t offset⟩,
   ⟨0xFE000000, 0x4E000000, .cop3 cofun⟩]

/-- `op` from 0x20 on: loads and stores (R84). -/
def memoryRows (w : Word) : List OpcodeRow :=
  let rt := w.extractLsb' 16 5
  let offset := w.extractLsb' 0 16
  let base := w.extractLsb' 21 5
  [⟨0xFC000000, 0x80000000, .lb rt offset base⟩,
   ⟨0xFC000000, 0x84000000, .lh rt offset base⟩,
   ⟨0xFC000000, 0x88000000, .lwl rt offset base⟩,
   ⟨0xFC000000, 0x8C000000, .lw rt offset base⟩,
   ⟨0xFC000000, 0x90000000, .lbu rt offset base⟩,
   ⟨0xFC000000, 0x94000000, .lhu rt offset base⟩,
   ⟨0xFC000000, 0x98000000, .lwr rt offset base⟩,
   ⟨0xFC000000, 0xA0000000, .sb rt offset base⟩,
   ⟨0xFC000000, 0xA4000000, .sh rt offset base⟩,
   ⟨0xFC000000, 0xA8000000, .swl rt offset base⟩,
   ⟨0xFC000000, 0xAC000000, .sw rt offset base⟩,
   ⟨0xFC000000, 0xB8000000, .swr rt offset base⟩,
   ⟨0xFC000000, 0xC0000000, .lwc0 rt offset base⟩,
   ⟨0xFC000000, 0xE0000000, .swc0 rt offset base⟩,
   ⟨0xFC000000, 0xC4000000, .lwc1 rt offset base⟩,
   ⟨0xFC000000, 0xE4000000, .swc1 rt offset base⟩,
   ⟨0xFC000000, 0xC8000000, .lwc2 rt offset base⟩,
   ⟨0xFC000000, 0xE8000000, .swc2 rt offset base⟩,
   ⟨0xFC000000, 0xCC000000, .lwc3 rt offset base⟩,
   ⟨0xFC000000, 0xEC000000, .swc3 rt offset base⟩]

/-- The 99 rows of the table in their order, with the fields of the word. -/
def opcodeRows (w : Word) : List OpcodeRow :=
  specialRows w ++ immediateRows w ++ cop0Rows w ++ copRows w ++ memoryRows w

/-- The instruction of the first row that the word matches (R83 step 3). -/
def instrOfTable (w : Word) : Option Instr :=
  ((opcodeRows w).find? fun r => w &&& r.mask == r.value).map OpcodeRow.instr

end Sys2Proof
end

