-- ==== Sys2Proof/Safety.lean ====
section
/-! DEFINITION. The terms in which statements are made: the invariant of the state, the end of a run, and what an instruction
or an exception entry leaves unchanged. -/

namespace Sys2Proof.Machine

/-! ### The invariant and the end of a run -/

/-- What every step keeps: the canonical form of memory and of the records of stores, x[0] = 0 (10_state.md R11), no pending load
to x[0] (R11), and `npc` and `ds` as R14 to R17 relate them to `pc`. -/
structure State.Inv (s : State) : Prop where
  memory : s.mem.wf = true
  record : s.storedTo.Pairwise (· < ·)
  recordBound : ∀ k ∈ s.storedTo, k < 2 ^ 32
  failed : s.failed.Pairwise (· < ·)
  failedBound : ∀ k ∈ s.failed, k < 2 ^ 32
  zero : s.gpr[0] = 0
  load : ∀ p, s.ld = some p → p.reg ≠ 0
  sequential : s.ds = none → s.npc = s.pc + 4
  slot : ∀ d, s.ds = some d → s.pc = d.bpc + 4 ∧ s.npc = if d.taken then d.target else s.pc + 4

/-- A run has ended (70_reset_and_hazards.md R331; log 32). -/
def State.ended (s : State) (endPc : Word) : Prop := s.pc = endPc ∧ s.ds = none ∧ s.ld = none

/-! ### What stays -/

/-- HI and LO stay. -/
structure SameHiLo (s t : State) : Prop where
  hi : t.hi = s.hi
  lo : t.lo = s.lo

/-- The breakpoint registers stay (CP0 3, 5, 9, 11). -/
structure SameBreakpoints (s t : State) : Prop where
  bpc : t.bpc = s.bpc
  bpcm : t.bpcm = s.bpcm
  bda : t.bda = s.bda
  bdam : t.bdam = s.bdam

/-- The registers that only exception entry writes stay, and Cause (CP0 6, 8, 13, 14). -/
structure SameSaved (s t : State) : Prop where
  cause : t.cause = s.cause
  epc : t.epc = s.epc
  badA : t.badA = s.badA
  tar : t.tar = s.tar

/-- Every CP0 register stays. -/
structure SameCp0 (s t : State) : Prop where
  sr : t.sr = s.sr
  dcic : t.dcic = s.dcic
  saved : SameSaved s t
  breakpoints : SameBreakpoints s t

/-- Every byte of memory stays, and what the model knows of earlier stores. -/
structure SameMemory (s t : State) : Prop where
  bytes : ∀ a, t.mem.read a = s.mem.read a
  record : t.storedTo = s.storedTo
  failed : t.failed = s.failed
  storeError : t.storeError = s.storeError

/-- What no instruction writes: the configuration, the inputs, and the bookkeeping that the step does around it. -/
structure SameOutside (s t : State) : Prop where
  params : t.params = s.params
  env : t.env = s.env
  draws : t.draws = s.draws
  lastpc : t.lastpc = s.lastpc
  resetHeld : t.resetHeld = s.resetHeld

/-! ### What happens -/

/-- The step ends sequentially (10_state.md R15, R17). -/
structure Advanced (s t : State) : Prop where
  pc : t.pc = s.npc
  npc : t.npc = s.npc + 4
  ds : t.ds = none

/-- The step ends in a delayed transfer (R16, R17). -/
structure Transferred (s t : State) (taken : Bool) (target : Word) : Prop where
  pc : t.pc = s.npc
  npc : t.npc = if taken then target else s.npc + 4
  ds : t.ds = some ⟨s.pc, taken, target⟩

/-- The pending load has landed, and no register but `rd` is written, which holds `v`; x[0] reads as zero (R11, R19). -/
def RegWritten (s t : State) (rd : RegIdx) (v : Word) : Prop :=
  ∀ i, t.x i = if i = 0 then 0 else if i = rd then v else s.settled i

/-- The pending load has landed, and no register is written. -/
def RegsKept (s t : State) : Prop := ∀ i, t.x i = s.settled i

/-- A register instruction: `x[rd] <- v` in its own step, and nothing else but the program counter. -/
structure WroteRegister (s t : State) (rd : RegIdx) (v : Word) : Prop where
  regs : RegWritten s t rd v
  ld : t.ld = none
  advanced : Advanced s t
  hiLo : SameHiLo s t
  cp0 : SameCp0 s t
  memory : SameMemory s t
  outside : SameOutside s t
  entered : t.entered = s.entered

/-- A jump or branch that writes no register. -/
structure Branched (s t : State) (taken : Bool) (target : Word) : Prop where
  regs : RegsKept s t
  ld : t.ld = none
  transferred : Transferred s t taken target
  hiLo : SameHiLo s t
  cp0 : SameCp0 s t
  memory : SameMemory s t
  outside : SameOutside s t
  entered : t.entered = s.entered

/-- A jump or branch that writes the link value to `rd`. -/
structure Linked (s t : State) (rd : RegIdx) (taken : Bool) (target : Word) : Prop where
  regs : RegWritten s t rd (s.pc + 8)
  ld : t.ld = none
  transferred : Transferred s t taken target
  hiLo : SameHiLo s t
  cp0 : SameCp0 s t
  memory : SameMemory s t
  outside : SameOutside s t
  entered : t.entered = s.entered

/-- An instruction that writes HI and LO and nothing else but the program counter. -/
structure WroteHiLo (s t : State) (hi lo : Word) : Prop where
  regs : RegsKept s t
  ld : t.ld = none
  advanced : Advanced s t
  hi : t.hi = hi
  lo : t.lo = lo
  cp0 : SameCp0 s t
  memory : SameMemory s t
  outside : SameOutside s t
  entered : t.entered = s.entered

/-- The DCIC register after the data-address condition at `va` (60_exceptions.md R275). -/
def DataPosted (s t : State) (va : Word) (write : Bool) : Prop :=
  t.dcic =
    if s.daHit va write then
      { s.dcic with db := true, da := true, w := s.dcic.w || write, r := s.dcic.r || !write }
    else s.dcic

/-- A load of `v` into `rt` from `va`: the value is pending (10_state.md R18); nothing else but the program counter, the parity
bit (R26) and the debug status bits changes. -/
structure Loaded (s t : State) (va : Word) (rt : RegIdx) (v : Word) : Prop where
  regs : RegsKept s t
  ld : t.ld = if rt = 0 then none else some ⟨rt, v⟩
  advanced : Advanced s t
  hiLo : SameHiLo s t
  sr : t.sr = { s.sr with pe := s.sr.pe || s.now.parityData }
  dcic : DataPosted s t va false
  saved : SameSaved s t
  breakpoints : SameBreakpoints s t
  memory : SameMemory s t
  outside : SameOutside s t
  entered : t.entered = s.entered

/-- BERR ends the data transaction of this step on the `n` bytes from `first` on: the input says so, or the platform does at the
address of one of them (00_scope.md R4, 20_memory.md R62). -/
abbrev State.BusError (s : State) (write : Bool) (first : Word) (n : Nat) : Prop :=
  s.now.berrData = true ∨
    ∃ j < n, (if write then (s.regionOf (first + BitVec.ofNat 32 j)).berrWrite
      else (s.regionOf (first + BitVec.ofNat 32 j)).berrRead) = true

/-- The platform has memory that can be written at the `n` addresses from `first` on. -/
abbrev State.inRam (s : State) (first : Word) (n : Nat) : Prop :=
  ∀ j < n, (s.regionOf (first + BitVec.ofNat 32 j)).place = .ram

/-- A store at `va` to the `n` bytes from `first` on: no byte outside them changes, and of them none where the platform has
read-only memory or a device; no register changes; the debug status bits are posted; a bus error stays pending
(20_memory.md R63), and what its bytes read as is open (70_reset_and_hazards.md R318) until writable memory takes another store.
What the bytes hold is said beside it. -/
structure Stored (s t : State) (va first : Word) (n : Nat) : Prop where
  regs : RegsKept s t
  ld : t.ld = none
  advanced : Advanced s t
  hiLo : SameHiLo s t
  sr : t.sr = s.sr
  dcic : DataPosted s t va true
  saved : SameSaved s t
  breakpoints : SameBreakpoints s t
  bytes : ∀ a, (∀ j < n, a ≠ s.cellOf (first + BitVec.ofNat 32 j)) → t.mem.read a = s.mem.read a
  kept : ∀ a, (platformAt s.params.platform a).place ≠ .ram → t.mem.read a = s.mem.read a
  record : ∀ a, a ∈ t.storedTo ↔ a ∈ s.storedTo ∨ ∃ j < n, a = s.cellOf (first + BitVec.ofNat 32 j)
  failed : s.BusError true first n →
    ∀ a, a ∈ t.failed ↔ a ∈ s.failed ∨ ∃ j < n, a = s.cellOf (first + BitVec.ofNat 32 j)
  settled : ¬s.BusError true first n →
    ∀ a, a ∈ t.failed ↔ a ∈ s.failed ∧
      ¬((platformAt s.params.platform a).place = .ram ∧ ∃ j < n, a = s.cellOf (first + BitVec.ofNat 32 j))
  storeError : t.storeError = true ↔ s.storeError = true ∨ s.BusError true first n
  outside : SameOutside s t
  entered : t.entered = s.entered

/-- Exception entry (60_exceptions.md R250 to R253); `altered` says whether an instruction that the pipeline had begun writes HI
or LO (70_reset_and_hazards.md R315), which then hold free values. -/
structure Entered (s t : State) (e : Exc) (altered : Bool) : Prop where
  regs : RegsKept s t
  ld : t.ld = none
  epc : t.epc = (match s.ds with | some d => d.bpc | none => s.pc)
  bd : t.cause.bd = s.ds.isSome
  bt : ∀ d, s.ds = some d → t.cause.bt = d.taken
  tar : ∀ d, s.ds = some d → d.taken = true → t.tar = d.target
  code : t.cause.excCode = e.code s.params.excCode
  ce : ∀ z, e = .cpU z → t.cause.ce = z
  sw : t.cause.sw = s.cause.sw
  badA : ∀ a, e = .adEL a ∨ e = .adES a → t.badA = a
  badAKept : (∀ a, e ≠ .adEL a ∧ e ≠ .adES a) → t.badA = s.badA
  sr : t.sr =
    { s.sr with kuo := s.sr.kup, ieo := s.sr.iep, kup := s.sr.kuc, iep := s.sr.iec, kuc := false, iec := false }
  pc : t.pc =
    if e = .debug then (if s.sr.bev then 0xBFC00140 else 0x80000040)
    else (if s.sr.bev then 0xBFC00180 else 0x80000080)
  npc : t.npc = t.pc + 4
  ds : t.ds = none
  hiLo : altered = false → SameHiLo s t
  hiLoOpen : altered = true → t.hi = Config.drawHI s.draws ∧ t.lo = Config.drawLO s.draws
  dcic : t.dcic = s.dcic
  breakpoints : SameBreakpoints s t
  memory : SameMemory s t
  outside : SameOutside s t
  entered : t.entered = true

/-- The instruction at `pc`, which is no branch, raises an exception of its own: the two begun behind it stand at `npc` and
`npc + 4`. -/
def Raised (s t : State) (e : Exc) : Prop := Entered s t e (s.skipped (s.npc + 4)).streamWrites

/-- The exception is one that decode finds (60_exceptions.md R245 item 3): RI, CpU, Sys or Bp. -/
def DecodeStage : Exc → Prop
  | .ri | .cpU _ | .sys | .bp => True
  | .int | .adEL _ | .adES _ | .ibe | .dbe | .ovf | .debug => False

/-- The ten codes of the parameter `excCode` differ, as the defaults do (R231). -/
def ExcCodesDiffer (c : ExcCodes) : Prop :=
  [c.int, c.adEL, c.adES, c.ibe, c.dbe, c.sys, c.bp, c.ri, c.cpU, c.ovf].Nodup

/-- The step comes to its fetch: no reset is under way, and no debug condition of the fetch stops or traps
(60_exceptions.md R245 items 1 and 2, R273, R274). -/
structure State.ReachesFetch (s : State) : Prop where
  reset : s.now.reset = none
  held : s.resetHeld = none
  noStop : ¬(s.traceHit = true ∧ s.entered = true)
  noTrap : ¬((s.pcHit = true ∨ s.traceHit = true) ∧ s.dcic.tr = true)

/-- A fetch address raises no AdEL: it is aligned, and in user mode its bit 31 is clear (20_memory.md R52, R60). -/
abbrev State.MayFetch (s : State) (va : Word) : Prop :=
  va.toNat % 4 = 0 ∧ ¬(s.sr.kuc = true ∧ 0x80000000 ≤ va.toNat)

/-- BERR ends the fetch of this step: the input says so, or the platform does at the address of one of its bytes (00_scope.md
R4, 20_memory.md R62). -/
abbrev State.FetchBusError (s : State) : Prop :=
  s.now.berrFetch = true ∨ ∃ j < 4, (s.regionOf (s.pc + BitVec.ofNat 32 j)).berrRead = true

/-- The word at an address outside 0xA0000000 to 0xBFFFFFFF has a byte that a store of the run wrote: a fetch there has no
meaning (20_memory.md R71). That exactly these addresses count as cacheable is the model's choice (log 13). -/
abbrev State.StoredCode (s : State) (va : Word) : Prop :=
  ¬(0xA0000000 ≤ va.toNat ∧ va.toNat ≤ 0xBFFFFFFF) ∧ ∃ j < 4, s.cellOf (va + BitVec.ofNat 32 j) ∈ s.storedTo

/-- A fetch at the address delivers a word: it raises no AdEL, and the platform ends it with no BERR (R60, R52, R62). -/
abbrev State.Delivers (s : State) (va : Word) : Prop :=
  s.MayFetch va ∧ ∀ j < 4, (s.regionOf (va + BitVec.ofNat 32 j)).berrRead = false

/-- The word that a fetch at the address would read is not known: it is stored code, or some byte of it is a device's or was left
open by a failed store (R71, R55, R63). -/
abbrev State.UnknownWord (s : State) (va : Word) : Prop :=
  s.StoredCode va ∨ ∃ j < 4, (s.regionOf (va + BitVec.ofNat 32 j)).place = .device ∨
    s.cellOf (va + BitVec.ofNat 32 j) ∈ s.failed

/-- A fetch at the address delivers a word that is known, the instruction's. -/
abbrev State.InstrAt (s : State) (va : Word) (i : Instr) : Prop :=
  s.Delivers va ∧ ¬s.UnknownWord va ∧ decodeWord (s.wordAt va) = .instr i

/-- One of the six instructions that write HI or LO (70_reset_and_hazards.md R315). -/
def WritesHiLo (i : Instr) : Prop :=
  ∃ rs rt : RegIdx, i ∈ [Instr.mult rs rt, .multu rs rt, .div rs rt, .divu rs rt, .mthi rs, .mtlo rs]

/-- One of the twenty jumps and branches (45_jump_branch.md, 47_coprocessor.md R204, R205). -/
def IsBranch (i : Instr) : Prop :=
  ∃ (rs rt rd : RegIdx) (offset : BitVec 16) (target : BitVec 26),
    i ∈ [Instr.j target, .jal target, .jr rs, .jalr rs rd, .beq rs rt offset, .bne rs rt offset, .blez rs offset,
      .bgtz rs offset, .bltz rs offset, .bgez rs offset, .bltzal rs offset, .bgezal rs offset, .bc0t offset, .bc0f offset,
      .bc1t offset, .bc1f offset, .bc2t offset, .bc2f offset, .bc3t offset, .bc3f offset]

/-- The fetch delivers a word: its address is allowed, no bus error ends it, and it is no fetch of stored code from a cacheable
address (R60, R62, R71). -/
structure State.FetchesWord (s : State) : Prop extends s.ReachesFetch where
  allowed : s.MayFetch s.pc
  noBusError : ¬s.FetchBusError
  noStoredCode : ¬s.StoredCode s.pc

/-- The state at the fetch: the mark of an exception entry is cleared, and the debug status bits of the fetch are posted
(R275). -/
def State.posted (s : State) : State :=
  { s with
    entered := false
    dcic :=
      { s.dcic with
        db := s.dcic.db || s.pcHit || s.traceHit
        pc := s.dcic.pc || s.pcHit
        t := s.dcic.t || s.traceHit } }

/-- The same, with a parity error of the fetch logged (R26). -/
def State.fetched (s : State) : State :=
  { s.posted with sr := { s.sr with pe := s.sr.pe || s.now.parityFetch } }

/-- The end of the step that began in `s`: `lastpc` becomes its `pc`, its inputs are used up, and the index of the free values
advances (10_state.md R19 step 9; log 38, log 41). -/
def State.after (t s : State) : State := { t with lastpc := some s.pc, env := s.env.tail, draws := s.draws + 1 }

/-- The four bytes of the word at `va` lie in four different cells, as they do in kseg0, in kseg1 and under the identity
mapping of the other addresses (20_memory.md R53). -/
def State.separateBytes (s : State) (va : Word) : Prop :=
  ∀ j < 4, ∀ k < 4, s.cellOf (va + BitVec.ofNat 32 j) = s.cellOf (va + BitVec.ofNat 32 k) → j = k

/-- The load or store of `va` passes the checks of 40_load_store.md R100 up to its transaction. -/
def State.accessible (s : State) (va : Word) (aligned : Bool) (write : Bool) : Prop :=
  aligned = true ∧ ¬(s.sr.kuc = true ∧ va.getLsbD 31 = true) ∧ s.sr.isC = false ∧
    ¬(s.daHit va write = true ∧ s.dcic.tr = true)

end Sys2Proof.Machine
end

