-- ==== Sys2Proof/Certificates/Slice0/Obligations.lean ====
section
/-! DEFINITION. The statements about the model. -/

open Sys2Proof Sys2Proof.Machine

/-! ### Encoding (30_encoding.md) -/

/-- Every well-formed instruction decodes from its encoding, as a word and as bytes in either byte order, with nothing of
its operands lost (R81, R83 to R87, R90; 20_memory.md R56). -/
def Obligations.DecodeOfEncode : Prop :=
  ∀ i : Instr, i.wellFormed = true →
    decodeWord (encode i) = .instr i ∧
      ∀ (big : Bool) (rest : List Byte), decodeBytes big (encodeBytes big i ++ rest) = (.instr i, rest)

/-- A word that decodes to an instruction is the encoding of that instruction, and the instruction is well-formed: no two
words are one instruction, so no bit of a word is ignored (R83 step 3: strict masks). -/
def Obligations.EncodeOfDecode : Prop :=
  ∀ (w : Word) (i : Instr), decodeWord w = .instr i → i.wellFormed = true ∧ encode i = w

/-- The words that raise RI by their opcodes are those of R88's two lists. -/
def Obligations.ReservedOpcodes : Prop :=
  ∀ w : Word,
    (decodeWord w = .reservedMajor ↔
      opOf w ∈ ([0x14, 0x15, 0x16, 0x17, 0x18, 0x19, 0x1A, 0x1B, 0x1C, 0x1D, 0x1E, 0x1F, 0x27, 0x2C, 0x2D, 0x2F, 0x34,
        0x35, 0x36, 0x37, 0x3C, 0x3D, 0x3E, 0x3F] : List (BitVec 6))) ∧
    (decodeWord w = .reservedMinor ↔
      opOf w = 0 ∧
      functOf w ∈ ([0x01, 0x05, 0x0A, 0x0B, 0x0E, 0x0F, 0x14, 0x15, 0x16, 0x17, 0x1C, 0x1D, 0x1E, 0x1F, 0x28, 0x29,
        0x2C, 0x2D, 0x2E, 0x2F, 0x30, 0x31, 0x32, 0x33, 0x34, 0x35, 0x36, 0x37, 0x38, 0x39, 0x3A, 0x3B, 0x3C, 0x3D, 0x3E,
        0x3F] : List (BitVec 6)))

/-- A word decodes to an instruction exactly where it is that of the first row of the opcode table whose mask and match it
meets, with its operands in the row's fields: so every row's opcode values are those of the table (30_encoding.md R83 step 3,
R84 to R87). A sanity check beside it: words printed in the spec's examples decode to the instructions they stand for. The values
of the table are the spec's general knowledge (log 2). -/
def Obligations.SampleWords : Prop :=
  (∀ (w : Word) (i : Instr), decodeWord w = .instr i ↔ instrOfTable w = some i) ∧
  decodeWord 0x8FA80004 = .instr (.lw 8 4 29) ∧ decodeWord 0x2128FFFF = .instr (.addi 8 9 0xFFFF) ∧
  decodeWord 0x00851020 = .instr (.add 2 4 5) ∧ decodeWord 0x00041103 = .instr (.sra 2 4 4) ∧
  decodeWord 0x0085001A = .instr (.div 4 5) ∧ decodeWord 0x1420FFFE = .instr (.bne 1 0 0xFFFE) ∧
  decodeWord 0x000001CD = .instr (.brk 7) ∧ decodeWord 0x45010004 = .instr (.bc1t 4) ∧
  decodeWord 0x401A6800 = .instr (.mfc0 26 13) ∧ decodeWord 0x42000010 = .instr .rfe

/-! ### The step (10_state.md R19) -/

/-- Where the fetch delivers a word that decodes to `i`, and no asynchronous event comes before `i`, the step is `exec i` of the
state at the fetch, followed by the end of the step. When `i` ends at decode, so that no event can come before it, is said by
AsynchronousEvents; which fetches are of stored code rests on log 13. -/
def Obligations.StepRunsDecodedInstruction : Prop :=
  ∀ (s : State) (i : Instr), s.FetchesWord → decodeWord (s.codeAt s.pc) = .instr i → i.wellFormed = true →
    (decodeStops i s.fetched = true ∨ (s.storeErrorDue = false ∧ s.interrupted = false)) →
    step s =
      match exec i s.fetched with
      | .next t => .next (t.after s)
      | .fault f => .fault f
      | .refused r => .refused r

/-- A word with no instruction: a reserved opcode takes the RI exception, whatever asynchronous event is pending; a word of no
row and no reserved set stops the model (30_encoding.md R83 steps 1, 2 and 5, R88; 60_exceptions.md R245 item 3). -/
def Obligations.StepOnOtherWords : Prop :=
  ∀ s : State, s.FetchesWord →
    ((decodeWord (s.codeAt s.pc) = .reservedMajor ∨ decodeWord (s.codeAt s.pc) = .reservedMinor) →
      ∃ t, Raised s.fetched t .ri ∧ step s = .next (t.after s)) ∧
    (decodeWord (s.codeAt s.pc) = .unlisted → step s = .fault (.unlistedEncoding (s.codeAt s.pc)))

/-- Fetch errors outrank all but the debug conditions of the fetch (60_exceptions.md R245): a misaligned address, or an address
with bit 31 set in user mode, takes AdEL with that address (20_memory.md R60, R52); a bus error, of the input or of the platform,
takes IBE (R62); outside 0xA0000000 to 0xBFFFFFFF a fetch of a byte that the run has stored to stops the model, and inside it
the fetch of memory sees what the stores left and runs it (R71), where no store to it failed (R63). Model's choices: that
exactly those addresses count as cacheable (log 13), that IBE comes before the stop (log 49), that a parity error is logged also
where BERR ends the fetch (log 47), and that every fetch makes the transaction that BERR can end, none being served by the
I-Cache (log 51). -/
def Obligations.FetchErrors : Prop :=
  ∀ s : State, s.ReachesFetch →
    ((s.pc.toNat % 4 ≠ 0 ∨ (s.sr.kuc = true ∧ s.pc.getLsbD 31 = true)) →
      ∃ t, Raised s.posted t (.adEL s.pc) ∧ step s = .next (t.after s)) ∧
    (s.pc.toNat % 4 = 0 → ¬(s.sr.kuc = true ∧ s.pc.getLsbD 31 = true) →
      (s.FetchBusError → ∃ t, Raised s.fetched t .ibe ∧ step s = .next (t.after s)) ∧
      (¬s.FetchBusError → ¬(0xA0000000 ≤ s.pc.toNat ∧ s.pc.toNat ≤ 0xBFFFFFFF) →
        (∃ j < 4, s.cellOf (s.pc + BitVec.ofNat 32 j) ∈ s.storedTo) → step s = .fault .fetchAfterStoreToCode) ∧
      (¬s.FetchBusError → 0xA0000000 ≤ s.pc.toNat → s.pc.toNat ≤ 0xBFFFFFFF →
        (∀ j < 4, (s.regionOf (s.pc + BitVec.ofNat 32 j)).place ≠ .device ∧
          s.cellOf (s.pc + BitVec.ofNat 32 j) ∉ s.failed) →
        ∀ i, decodeWord (s.wordAt s.pc) = .instr i →
          (decodeStops i s.fetched = true ∨ (s.storeErrorDue = false ∧ s.interrupted = false)) →
          step s =
            match exec i s.fetched with
            | .next t => .next (t.after s)
            | .fault f => .fault f
            | .refused r => .refused r))

/-- An interrupt, or before it a late store bus error, is taken in place of an instruction that does not itself end at decode
(60_exceptions.md R240, R245 item 4; 20_memory.md R63): the entry is that of the state, with the instruction at `pc` not
executed; the bus error is then no longer pending. An instruction ends at decode exactly where it raises RI, CpU, Sys or Bp
or stops as a branch in a delay slot (R245 item 3, R171; where two exceptions have one code in the parameter `excCode` only
from left to right). HI and LO stay if neither the instruction nor one of the two behind it in the stream writes them (R315;
FetchBreakpoints says what that stream is). Model's choices: that LWC0, SWC0 and a coprocessor instruction on a usable unit, which the model refuses,
are not of these, so that an event is taken before the refusal although R245 ranks what is unspecified with item 3 (log 16); and
what the stream is where the spec gives none (log 40). -/
def Obligations.AsynchronousEvents : Prop :=
  (∀ (s : State) (i : Instr), s.FetchesWord → decodeWord (s.codeAt s.pc) = .instr i → decodeStops i s.fetched = false →
    ((s.storeError = true ∧ s.now.deliverStoreError = true) →
      ∃ t altered, Entered { s.fetched with storeError := false } t .dbe altered ∧ step s = .next (t.after s) ∧
        (altered = true ↔ WritesHiLo i ∨ (State.past { s.fetched with storeError := false } i).streamWrites = true)) ∧
    (¬(s.storeError = true ∧ s.now.deliverStoreError = true) → s.interrupted = true →
      ∃ t altered, Entered s.fetched t .int altered ∧ step s = .next (t.after s) ∧
        (altered = true ↔ WritesHiLo i ∨ (s.fetched.past i).streamWrites = true))) ∧
  ∀ (s : State) (i : Instr),
    (decodeStops i s = true →
      (∃ t e altered, DecodeStage e ∧ exec i s = .next t ∧ Entered s t e altered) ∨ exec i s = .fault .branchInDelaySlot) ∧
    (s.entered = false → ExcCodesDiffer s.params.excCode →
      ((∃ t e altered, DecodeStage e ∧ exec i s = .next t ∧ Entered s t e altered) ∨ exec i s = .fault .branchInDelaySlot) →
      decodeStops i s = true)

/-- The interrupt condition of R240: interrupts are enabled, and a software request, or a hardware request while INTMASK is
not asserted, meets its mask bit. -/
def Obligations.InterruptCondition : Prop :=
  ∀ s : State,
    s.interrupted = true ↔
      s.sr.iec = true ∧
        ((∃ k < 2, s.cause.sw.getLsbD k = true ∧ s.sr.mask.getLsbD k = true) ∨
          (s.now.intMask = false ∧ ∃ k < 6, s.now.int.getLsbD k = true ∧ s.sr.mask.getLsbD (k + 2) = true))

/-- The debug conditions of a fetch (60_exceptions.md R271, R273 to R275): with TR set, the program-counter breakpoint or the
trace condition takes the Debug exception, with its status bits posted, before a fetch error; a trace condition right after an
exception entry stops the model, which is its choice (log 24). HI and LO stay if neither of the two instructions that the
pipeline had begun behind the one at `pc` is MULT, MULTU, DIV, DIVU, MTHI or MTLO (70_reset_and_hazards.md R315): these two are
the next in the stream behind the one at `pc`, each fetched in the mode and from the memory that the one before it leaves.
Model's choices (log 40): a word that is not known counts as one of the six (stored code, a device's, one left open by a failed
store), and where the word at `pc` is not known HI and LO are open; a fetch that would fail counts as none; an instruction that
raises an exception or stops, and a word of no instruction, leads on as if it had no effect, a jump or branch to where it would
go outside a delay slot with every unit usable; the first of the two counts as run with no input asserted, also where a fetch
breakpoint or a trace condition with TR set, or a pending enabled software interrupt, would stop it before it runs. -/
def Obligations.FetchBreakpoints : Prop :=
  (∀ s : State, s.now.reset = none → s.resetHeld = none →
    (s.traceHit = true → s.entered = true → step s = .fault .traceAtExceptionVector) ∧
    ((s.pcHit = true ∨ s.traceHit = true) → ¬(s.traceHit = true ∧ s.entered = true) → s.dcic.tr = true →
      ∃ t, Entered s.posted t .debug s.posted.writesBehind ∧ step s = .next (t.after s))) ∧
  (∀ s : State,
    ((¬s.MayFetch s.pc ∨ s.FetchBusError) → s.writesBehind = (s.skipped (s.npc + 4)).streamWrites) ∧
    (s.MayFetch s.pc → ¬s.FetchBusError →
      (s.UnknownWord s.pc → s.writesBehind = true) ∧
      (¬s.UnknownWord s.pc →
        (∀ i, decodeWord (s.wordAt s.pc) = .instr i → s.writesBehind = (s.past i).streamWrites) ∧
        ((∀ i, decodeWord (s.wordAt s.pc) ≠ .instr i) → s.writesBehind = (s.skipped (s.npc + 4)).streamWrites)))) ∧
  (∀ (s : State) (i : Instr), s.entered = false →
    (∀ t, exec i s = .next t → t.entered = false → s.past i = t) ∧
    ((∀ t, exec i s = .next t → t.entered = true) →
      ∃ second, s.past i = s.skipped second ∧
        (¬IsBranch i → second = s.npc + 4) ∧
        (IsBranch i →
          ∃ t, exec i { s with ds := none, sr := { s.sr with cu := 0xF } } = .next t ∧ second = t.npc))) ∧
  (∀ (s : State) (va : Word),
    s.mulDivAt va = true ↔
      s.Delivers va ∧
        (s.UnknownWord va ∨ ∃ i, WritesHiLo i ∧ decodeWord (s.wordAt va) = .instr i)) ∧
  ∀ s : State, s.entered = false →
    (∀ i t, s.InstrAt s.pc i → exec i { s with env := [] } = .next t → t.entered = false →
      (s.streamWrites = true ↔ s.mulDivAt s.pc = true ∨ t.mulDivAt s.npc = true)) ∧
    (∀ i, s.InstrAt s.pc i → (∀ t, exec i { s with env := [] } = .next t → t.entered = true) →
      (s.streamWrites = true ↔ s.mulDivAt s.pc = true ∨ s.mulDivAt s.npc = true)) ∧
    ((∀ i, ¬s.InstrAt s.pc i) → (s.streamWrites = true ↔ s.mulDivAt s.pc = true ∨ s.mulDivAt s.npc = true))

/-- When the conditions of a fetch hold (R276, R271, R273): the facility is on in the current mode, and `pc` agrees with BPC in
the bits that BPCM compares; or `pc` is not the previous step's `pc` plus 4. -/
def Obligations.DebugConditions : Prop :=
  ∀ s : State,
    (s.dbgOn = true ↔
      s.dcic.de = true ∧ ((s.sr.kuc = true ∧ s.dcic.ud = true) ∨ (s.sr.kuc = false ∧ s.dcic.kd = true))) ∧
    (s.pcHit = true ↔
      s.dbgOn = true ∧ s.dcic.pce = true ∧
        ∀ k < 32, s.bpcm.getLsbD k = true → s.pc.getLsbD k = s.bpc.getLsbD k) ∧
    (s.traceHit = true ↔
      s.dbgOn = true ∧ s.dcic.te = true ∧ ∃ last, s.lastpc = some last ∧ s.pc ≠ last + 4) ∧
    ∀ (va : Word) (write : Bool),
      s.daHit va write = true ↔
        s.dbgOn = true ∧ s.dcic.dae = true ∧ (if write then s.dcic.dw = true else s.dcic.dr = true) ∧
          ∀ k < 32, s.bdam.getLsbD k = true → va.getLsbD k = s.bda.getLsbD k

/-! ### Reset (70_reset_and_hazards.md R300, R301; 10_state.md R42) -/

/-- The state after a cold reset, as far as the spec gives it. -/
def Obligations.StateAfterColdReset : Prop :=
  State.reset.sr.toWord = 0x00400000 ∧ State.reset.cause.toWord 0 = 0 ∧ State.reset.dcic.toWord = 0 ∧
  State.reset.bpcm = 0xFFFFFFFF ∧ State.reset.bdam = 0xFFFFFFFF ∧ State.reset.pc = 0xBFC00000 ∧
  State.reset.npc = 0xBFC00004 ∧ State.reset.ds = none ∧ State.reset.ld = none ∧ State.reset.lastpc = none ∧
  State.reset.storeError = false ∧ State.reset.x 0 = 0

/-- The reset event in any state: the step in which RESET is deasserted sets what R300 sets; a warm reset keeps EPC, TAR, BPC
and BDA; memory keeps every byte (the platform's, R42; log 27); the run's records of stores stay, which is the model's choice
(log 13, log 39). -/
def Obligations.ResetEvent : Prop :=
  ∀ (s : State) (k : ResetKind), s.now.reset = none → s.resetHeld = some k →
    ∃ t, step s = .next t ∧
      t.sr.toWord = 0x00400000 ∧ t.cause.toWord 0 = 0 ∧ t.dcic.toWord = 0 ∧ t.bpcm = 0xFFFFFFFF ∧
      t.bdam = 0xFFFFFFFF ∧ t.pc = 0xBFC00000 ∧ t.npc = 0xBFC00004 ∧ t.ds = none ∧ t.ld = none ∧ t.lastpc = none ∧
      t.storeError = false ∧ t.resetHeld = none ∧ t.x 0 = 0 ∧
      (k = .warm → t.epc = s.epc ∧ t.tar = s.tar ∧ t.bpc = s.bpc ∧ t.bda = s.bda) ∧
      (∀ a, t.mem.read a = s.mem.read a) ∧ t.failed = s.failed ∧ t.storedTo = s.storedTo ∧ t.params = s.params

/-- While RESET is asserted the model executes nothing: every register and every byte stays. -/
def Obligations.ResetHolds : Prop :=
  ∀ (s : State) (k : ResetKind), s.now.reset = some k →
    ∃ t, step s = .next t ∧ t.resetHeld = some k ∧ (∀ i, t.x i = s.x i) ∧ t.pc = s.pc ∧ t.npc = s.npc ∧ t.ds = s.ds ∧
      t.ld = s.ld ∧ SameHiLo s t ∧ SameCp0 s t ∧ SameMemory s t ∧ t.lastpc = s.lastpc ∧ t.params = s.params

/-! ### Invariants and whole-machine rules -/

/-- The invariant holds after reset. -/
def Obligations.InvariantAtReset : Prop := State.reset.Inv

/-- Every step of every kind keeps the invariant, from every state that has it. -/
def Obligations.StepKeepsInvariant : Prop :=
  ∀ s t : State, s.Inv → step s = .next t → t.Inv

/-- User mode with Cu0 clear has no way into kernel mode, and no way to a CP0 register, but an exception entry or a reset
(60_exceptions.md R258, R259): a step either leaves the machine in user mode with the status register (but for the parity
log), the saved registers, the breakpoint registers and the debug control bits as they were, or ends at an exception vector
with the old status pushed. -/
def Obligations.UserModeConfined : Prop :=
  ∀ s t : State, s.sr.kuc = true → s.sr.usable 0 = false → s.now.reset = none → s.resetHeld = none → step s = .next t →
    SameBreakpoints s t ∧ t.dcic.toWord &&& 0xFFFFFFC0 = s.dcic.toWord &&& 0xFFFFFFC0 ∧
    ((t.entered = false ∧ (∃ pe, t.sr = { s.sr with pe := pe }) ∧ SameSaved s t) ∨
      (t.entered = true ∧
        (∃ pe, t.sr =
          { s.sr with pe := pe, kuo := s.sr.kup, ieo := s.sr.iep, kup := true, iep := s.sr.iec, kuc := false, iec := false }) ∧
        t.pc ∈ (if s.sr.bev then [0xBFC00140, 0xBFC00180] else [0x80000040, 0x80000080] : List Word)))

/-- In user mode no step changes a byte of memory that no address with bit 31 clear names, nor leaves open what it reads as
(20_memory.md R52). -/
def Obligations.UserStoresConfined : Prop :=
  ∀ (s t : State) (a : Nat), s.sr.kuc = true → step s = .next t →
    (∀ va : Word, va.getLsbD 31 = false → s.cellOf va ≠ a) →
    t.mem.read a = s.mem.read a ∧ (a ∈ t.failed ↔ a ∈ s.failed)

/-- Every instruction that gives a next state lands the pending load and writes at most one register (10_state.md R19 steps 6
to 8), and its step ends sequentially, in a delayed transfer, or at an exception vector (R15, R16, 60_exceptions.md R252). -/
def Obligations.EveryInstructionEnds : Prop :=
  ∀ (i : Instr) (s t : State), exec i s = .next t →
    (RegsKept s t ∨ ∃ rd v, RegWritten s t rd v) ∧
    (t.entered = s.entered ∧ Advanced s t ∨
      (∃ taken target, t.entered = s.entered ∧ Transferred s t taken target) ∨
      t.entered = true ∧ t.ds = none ∧ t.npc = t.pc + 4 ∧
        t.pc ∈ ([0x80000040, 0x80000080, 0xBFC00140, 0xBFC00180] : List Word))

/-! ### Operands and memory -/

/-- What a register operand reads (10_state.md R11, R18): x[0] is zero; in the load delay slot of a register the value is the
free value (log 6); any other register reads its content. -/
def Obligations.OperandReads : Prop :=
  ∀ (s : State) (i : RegIdx),
    s.rs 0 = 0 ∧ s.rt 0 = 0 ∧
    (∀ v, i ≠ 0 → s.ld = some ⟨i, v⟩ →
      s.rs i = Config.loadDelayRead s.draws .rs ∧ s.rt i = Config.loadDelayRead s.draws .rt) ∧
    (i ≠ 0 → (∀ v, s.ld ≠ some ⟨i, v⟩) → s.rs i = s.gpr[i.toNat]'i.isLt ∧ s.rt i = s.gpr[i.toNat]'i.isLt)

/-- kseg0 and kseg1 are two windows onto the same 512 Mbyte; the other addresses are mapped by the parameter `physMap`, whose
default is the identity (20_memory.md R51, R53; the bounds are log 45). Where the platform has memory, read-only or not, a load
reads the memory's byte at the physical address, and a fetch the same word as a load, but where the last store to it failed: there
a load reads a free value of its step and its virtual address (R63, 70_reset_and_hazards.md R318; log 39). Where the platform has
a device, a load reads a free value (R55, 00_scope.md R4; log 27); without a platform description every address is memory. That
a cacheable read gives the same before the caches are initialised is the model's choice (log 52). -/
def Obligations.AddressMapping : Prop :=
  (∀ (p : Params) (va : Word),
    (0x80000000 ≤ va.toNat ∧ va.toNat ≤ 0xBFFFFFFF → (translate p va).toNat = va.toNat % 0x20000000) ∧
    (¬(0x80000000 ≤ va.toNat ∧ va.toNat ≤ 0xBFFFFFFF) →
      translate p va = physMap p.physMap va ∧ (p.physMap = [] → translate p va = va))) ∧
  ∀ (s : State) (va : Word),
    ((s.regionOf va).place ≠ .device → (translate s.params va).toNat ∉ s.failed →
      s.byteAt va = s.mem.read (translate s.params va).toNat) ∧
    ((s.regionOf va).place ≠ .device → (translate s.params va).toNat ∈ s.failed →
      s.byteAt va = Config.failedStoreByte s.draws .data va) ∧
    ((s.regionOf va).place = .device →
      s.byteAt va = Config.deviceByte s.draws .data (translate s.params va).toNat) ∧
    ((∀ j < 4, (s.regionOf (va + BitVec.ofNat 32 j)).place ≠ .device ∧ s.cellOf (va + BitVec.ofNat 32 j) ∉ s.failed) →
      s.codeAt va = s.wordAt va) ∧
    (s.params.platform = [] →
      (s.regionOf va).place = .ram ∧ (s.regionOf va).berrRead = false ∧ (s.regionOf va).berrWrite = false)

/-! ### ALU (41_alu_immediate.md, 42_alu_register.md, 43_shift.md) -/

/-- ADD, ADDI and SUB whose result is a signed 32-bit value write it (R121, R131, R133). -/
def Obligations.SignedArithmetic : Prop :=
  ∀ (s : State) (rd rs rt : RegIdx) (imm : BitVec 16),
    (-2 ^ 31 ≤ (s.rs rs).toInt + (s.rt rt).toInt → (s.rs rs).toInt + (s.rt rt).toInt ≤ 2 ^ 31 - 1 →
      ∃ t v, exec (.add rd rs rt) s = .next t ∧ WroteRegister s t rd v ∧
        v.toInt = (s.rs rs).toInt + (s.rt rt).toInt) ∧
    (-2 ^ 31 ≤ (s.rs rs).toInt + imm.toInt → (s.rs rs).toInt + imm.toInt ≤ 2 ^ 31 - 1 →
      ∃ t v, exec (.addi rt rs imm) s = .next t ∧ WroteRegister s t rt v ∧ v.toInt = (s.rs rs).toInt + imm.toInt) ∧
    (-2 ^ 31 ≤ (s.rs rs).toInt - (s.rt rt).toInt → (s.rs rs).toInt - (s.rt rt).toInt ≤ 2 ^ 31 - 1 →
      ∃ t v, exec (.sub rd rs rt) s = .next t ∧ WroteRegister s t rd v ∧
        v.toInt = (s.rs rs).toInt - (s.rt rt).toInt)

/-- ADD, ADDI and SUB whose result is no signed 32-bit value raise Ovf, also where the destination is x[0] (R121, R131, R133,
60_exceptions.md R237). -/
def Obligations.OverflowTraps : Prop :=
  ∀ (s : State) (rd rs rt : RegIdx) (imm : BitVec 16),
    (((s.rs rs).toInt + (s.rt rt).toInt < -2 ^ 31 ∨ (s.rs rs).toInt + (s.rt rt).toInt > 2 ^ 31 - 1) →
      ∃ t, exec (.add rd rs rt) s = .next t ∧ Raised s t .ovf) ∧
    (((s.rs rs).toInt + imm.toInt < -2 ^ 31 ∨ (s.rs rs).toInt + imm.toInt > 2 ^ 31 - 1) →
      ∃ t, exec (.addi rt rs imm) s = .next t ∧ Raised s t .ovf) ∧
    (((s.rs rs).toInt - (s.rt rt).toInt < -2 ^ 31 ∨ (s.rs rs).toInt - (s.rt rt).toInt > 2 ^ 31 - 1) →
      ∃ t, exec (.sub rd rs rt) s = .next t ∧ Raised s t .ovf)

/-- ADDU, SUBU and ADDIU write the result modulo 2^32; the immediate of ADDIU is sign-extended (R122, R132, R134). -/
def Obligations.UnsignedArithmetic : Prop :=
  ∀ (s : State) (rd rs rt : RegIdx) (imm : BitVec 16),
    (∃ t v, exec (.addu rd rs rt) s = .next t ∧ WroteRegister s t rd v ∧
      v.toNat = ((s.rs rs).toNat + (s.rt rt).toNat) % 2 ^ 32) ∧
    (∃ t v, exec (.subu rd rs rt) s = .next t ∧ WroteRegister s t rd v ∧
      v.toNat = ((s.rs rs).toNat + (2 ^ 32 - (s.rt rt).toNat)) % 2 ^ 32) ∧
    (∃ t v, exec (.addiu rt rs imm) s = .next t ∧ WroteRegister s t rt v ∧
      (v.toNat : Int) = ((s.rs rs).toNat + imm.toInt) % 2 ^ 32)

/-- SLT, SLTI (signed), SLTU and SLTIU (unsigned) write 1 or 0; the immediates are sign-extended first (R123, R124, R135,
R136). -/
def Obligations.Comparisons : Prop :=
  ∀ (s : State) (rd rs rt : RegIdx) (imm : BitVec 16),
    (∃ t, exec (.slt rd rs rt) s = .next t ∧
      WroteRegister s t rd (if (s.rs rs).toInt < (s.rt rt).toInt then 1 else 0)) ∧
    (∃ t, exec (.sltu rd rs rt) s = .next t ∧
      WroteRegister s t rd (if (s.rs rs).toNat < (s.rt rt).toNat then 1 else 0)) ∧
    (∃ t, exec (.slti rt rs imm) s = .next t ∧
      WroteRegister s t rt (if (s.rs rs).toInt < imm.toInt then 1 else 0)) ∧
    (∃ t, exec (.sltiu rt rs imm) s = .next t ∧
      WroteRegister s t rt (if ((s.rs rs).toNat : Int) < imm.toInt % 2 ^ 32 then 1 else 0))

/-- AND, OR, XOR, NOR and, with the immediate zero-extended, ANDI, ORI, XORI bit by bit (R125 to R127, R137 to R140). -/
def Obligations.BitwiseLogic : Prop :=
  ∀ (s : State) (rd rs rt : RegIdx) (imm : BitVec 16),
    (∃ t v, exec (.and rd rs rt) s = .next t ∧ WroteRegister s t rd v ∧
      ∀ k < 32, v.getLsbD k = ((s.rs rs).getLsbD k && (s.rt rt).getLsbD k)) ∧
    (∃ t v, exec (.or rd rs rt) s = .next t ∧ WroteRegister s t rd v ∧
      ∀ k < 32, v.getLsbD k = ((s.rs rs).getLsbD k || (s.rt rt).getLsbD k)) ∧
    (∃ t v, exec (.xor rd rs rt) s = .next t ∧ WroteRegister s t rd v ∧
      ∀ k < 32, v.getLsbD k = ((s.rs rs).getLsbD k ^^ (s.rt rt).getLsbD k)) ∧
    (∃ t v, exec (.nor rd rs rt) s = .next t ∧ WroteRegister s t rd v ∧
      ∀ k < 32, v.getLsbD k = !((s.rs rs).getLsbD k || (s.rt rt).getLsbD k)) ∧
    (∃ t v, exec (.andi rt rs imm) s = .next t ∧ WroteRegister s t rt v ∧
      ∀ k < 32, v.getLsbD k = (decide (k < 16) && (s.rs rs).getLsbD k && imm.getLsbD k)) ∧
    (∃ t v, exec (.ori rt rs imm) s = .next t ∧ WroteRegister s t rt v ∧
      ∀ k < 32, v.getLsbD k = ((s.rs rs).getLsbD k || (decide (k < 16) && imm.getLsbD k))) ∧
    (∃ t v, exec (.xori rt rs imm) s = .next t ∧ WroteRegister s t rt v ∧
      ∀ k < 32, v.getLsbD k = ((s.rs rs).getLsbD k ^^ (decide (k < 16) && imm.getLsbD k)))

/-- LUI writes the immediate times 2^16 in its own step (R128, R120), with no load delay, which R128 derives from its place in the
table. -/
def Obligations.LoadUpperImmediate : Prop :=
  ∀ (s : State) (rt : RegIdx) (imm : BitVec 16),
    ∃ t v, exec (.lui rt imm) s = .next t ∧ WroteRegister s t rt v ∧ v.toNat = imm.toNat * 2 ^ 16

/-- SLL, SRL and SRA by the constant, SLLV, SRLV and SRAV by the low five bits of `x[rs]` (R146 to R151). -/
def Obligations.Shifts : Prop :=
  ∀ (s : State) (rd rs rt : RegIdx) (shamt : BitVec 5),
    (∃ t v, exec (.sll rd rt shamt) s = .next t ∧ WroteRegister s t rd v ∧
      v.toNat = (s.rt rt).toNat * 2 ^ shamt.toNat % 2 ^ 32) ∧
    (∃ t v, exec (.srl rd rt shamt) s = .next t ∧ WroteRegister s t rd v ∧
      v.toNat = (s.rt rt).toNat / 2 ^ shamt.toNat) ∧
    (∃ t v, exec (.sra rd rt shamt) s = .next t ∧ WroteRegister s t rd v ∧
      v.toInt = (s.rt rt).toInt / 2 ^ shamt.toNat) ∧
    (∃ t v, exec (.sllv rd rt rs) s = .next t ∧ WroteRegister s t rd v ∧
      v.toNat = (s.rt rt).toNat * 2 ^ ((s.rs rs).toNat % 32) % 2 ^ 32) ∧
    (∃ t v, exec (.srlv rd rt rs) s = .next t ∧ WroteRegister s t rd v ∧
      v.toNat = (s.rt rt).toNat / 2 ^ ((s.rs rs).toNat % 32)) ∧
    (∃ t v, exec (.srav rd rt rs) s = .next t ∧ WroteRegister s t rd v ∧
      v.toInt = (s.rt rt).toInt / 2 ^ ((s.rs rs).toNat % 32))

/-! ### Multiply and divide (44_multiply_divide.md) -/

/-- MULT and MULTU leave the 64-bit product in HI and LO (R156, R157). -/
def Obligations.Multiply : Prop :=
  ∀ (s : State) (rs rt : RegIdx),
    (∃ t hi lo, exec (.mult rs rt) s = .next t ∧ WroteHiLo s t hi lo ∧
      hi.toInt * 2 ^ 32 + lo.toNat = (s.rs rs).toInt * (s.rt rt).toInt) ∧
    (∃ t hi lo, exec (.multu rs rt) s = .next t ∧ WroteHiLo s t hi lo ∧
      hi.toNat * 2 ^ 32 + lo.toNat = (s.rs rs).toNat * (s.rt rt).toNat)

/-- DIV: quotient in LO, remainder in HI, smaller than the divisor and with the sign of the dividend (so the quotient is
rounded toward zero); DIVU the same without signs (R158, R159; the convention is log 46). -/
def Obligations.Divide : Prop :=
  ∀ (s : State) (rs rt : RegIdx),
    ((s.rt rt).toInt ≠ 0 → ¬((s.rs rs).toInt = -2 ^ 31 ∧ (s.rt rt).toInt = -1) →
      ∃ t hi lo, exec (.div rs rt) s = .next t ∧ WroteHiLo s t hi lo ∧
        (s.rs rs).toInt = lo.toInt * (s.rt rt).toInt + hi.toInt ∧ hi.toInt.natAbs < (s.rt rt).toInt.natAbs ∧
        (0 ≤ (s.rs rs).toInt → 0 ≤ hi.toInt) ∧ ((s.rs rs).toInt ≤ 0 → hi.toInt ≤ 0)) ∧
    ((s.rt rt).toNat ≠ 0 →
      ∃ t hi lo, exec (.divu rs rt) s = .next t ∧ WroteHiLo s t hi lo ∧
        (s.rs rs).toNat = lo.toNat * (s.rt rt).toNat + hi.toNat ∧ hi.toNat < (s.rt rt).toNat)

/-- A division by zero, or of 0x80000000 by 0xFFFFFFFF, raises nothing and completes with the free pair of `divSpecial` in LO
and HI (R155, R166; log 9). -/
def Obligations.DivideSpecial : Prop :=
  ∀ (s : State) (rs rt : RegIdx),
    (((s.rt rt).toInt = 0 ∨ ((s.rs rs).toInt = -2 ^ 31 ∧ (s.rt rt).toInt = -1)) →
      ∃ t, exec (.div rs rt) s = .next t ∧
        WroteHiLo s t (Config.divSpecial true (s.rs rs) (s.rt rt)).2 (Config.divSpecial true (s.rs rs) (s.rt rt)).1) ∧
    ((s.rt rt).toNat = 0 →
      ∃ t, exec (.divu rs rt) s = .next t ∧
        WroteHiLo s t (Config.divSpecial false (s.rs rs) (s.rt rt)).2
          (Config.divSpecial false (s.rs rs) (s.rt rt)).1)

/-- MFHI and MFLO write the register in their own step; MTHI and MTLO write one of the pair and keep the other (R160 to
R163). -/
def Obligations.HiLoMoves : Prop :=
  ∀ (s : State) (rd rs : RegIdx),
    (∃ t, exec (.mfhi rd) s = .next t ∧ WroteRegister s t rd s.hi) ∧
    (∃ t, exec (.mflo rd) s = .next t ∧ WroteRegister s t rd s.lo) ∧
    (∃ t, exec (.mthi rs) s = .next t ∧ WroteHiLo s t (s.rs rs) s.lo) ∧
    (∃ t, exec (.mtlo rs) s = .next t ∧ WroteHiLo s t s.hi (s.rs rs))

/-! ### Jumps and branches (45_jump_branch.md) -/

/-- J and JAL go to the 26-bit target in the 256-Mbyte region of the delay slot, JR and JALR to the register read in their own
step; JAL and JALR write `pc + 8` (R172 to R175; the region is log 8). That JALR with rs = rd goes to the old value is the
spec's decision D35 (log 35). -/
def Obligations.Jumps : Prop :=
  ∀ (s : State) (rs rd : RegIdx) (target : BitVec 26), s.ds = none →
    (∃ t T, exec (.j target) s = .next t ∧ Branched s t true T ∧
      T.toNat = (s.pc + 4).toNat / 2 ^ 28 * 2 ^ 28 + target.toNat * 4) ∧
    (∃ t T, exec (.jal target) s = .next t ∧ Linked s t 31 true T ∧
      T.toNat = (s.pc + 4).toNat / 2 ^ 28 * 2 ^ 28 + target.toNat * 4) ∧
    (∃ t, exec (.jr rs) s = .next t ∧ Branched s t true (s.rs rs)) ∧
    (∃ t, exec (.jalr rs rd) s = .next t ∧ Linked s t rd true (s.rs rs))

/-- BEQ and BNE, with the target `pc + 4` plus four times the signed offset (R176 to R178). -/
def Obligations.EqualityBranches : Prop :=
  ∀ (s : State) (rs rt : RegIdx) (offset : BitVec 16), s.ds = none →
    ∃ T : Word, (T.toNat : Int) = (s.pc.toNat + 4 + 4 * offset.toInt) % 2 ^ 32 ∧
      (∃ t, exec (.beq rs rt offset) s = .next t ∧ Branched s t (decide (s.rs rs = s.rt rt)) T) ∧
      (∃ t, exec (.bne rs rt offset) s = .next t ∧ Branched s t (decide (s.rs rs ≠ s.rt rt)) T)

/-- BLEZ, BGTZ, BLTZ and BGEZ compare the register with zero as a signed integer (R176, R179 to R182). -/
def Obligations.SignBranches : Prop :=
  ∀ (s : State) (rs : RegIdx) (offset : BitVec 16), s.ds = none →
    ∃ T : Word, (T.toNat : Int) = (s.pc.toNat + 4 + 4 * offset.toInt) % 2 ^ 32 ∧
      (∃ t, exec (.blez rs offset) s = .next t ∧ Branched s t (decide ((s.rs rs).toInt ≤ 0)) T) ∧
      (∃ t, exec (.bgtz rs offset) s = .next t ∧ Branched s t (decide (0 < (s.rs rs).toInt)) T) ∧
      (∃ t, exec (.bltz rs offset) s = .next t ∧ Branched s t (decide ((s.rs rs).toInt < 0)) T) ∧
      (∃ t, exec (.bgez rs offset) s = .next t ∧ Branched s t (decide (0 ≤ (s.rs rs).toInt)) T)

/-- BLTZAL and BGEZAL test the register before they write the link, and write `pc + 8` to x[31] whether or not the branch is
taken (R183, R184). -/
def Obligations.LinkBranches : Prop :=
  ∀ (s : State) (rs : RegIdx) (offset : BitVec 16), s.ds = none →
    ∃ T : Word, (T.toNat : Int) = (s.pc.toNat + 4 + 4 * offset.toInt) % 2 ^ 32 ∧
      (∃ t, exec (.bltzal rs offset) s = .next t ∧ Linked s t 31 (decide ((s.rs rs).toInt < 0)) T) ∧
      (∃ t, exec (.bgezal rs offset) s = .next t ∧ Linked s t 31 (decide (0 ≤ (s.rs rs).toInt)) T)

/-- BCzT and BCzF with `Cu[z]` set, in either mode, branch on the condition line of coprocessor z (47_coprocessor.md R196, R204,
R205). -/
def Obligations.CoprocessorBranches : Prop :=
  ∀ (s : State) (offset : BitVec 16) (z : BitVec 2) (sense : Bool) (i : Instr), s.ds = none →
    (z, sense, i) ∈
      [(0, true, Instr.bc0t offset), (0, false, .bc0f offset), (1, true, .bc1t offset), (1, false, .bc1f offset),
       (2, true, .bc2t offset), (2, false, .bc2f offset), (3, true, .bc3t offset), (3, false, .bc3f offset)] →
    s.sr.cu.getLsbD z.toNat = true →
    ∃ (t : State) (T : Word), exec i s = .next t ∧
      (T.toNat : Int) = (s.pc.toNat + 4 + 4 * offset.toInt) % 2 ^ 32 ∧
      Branched s t (decide (s.now.cpc.getLsbD z.toNat = sense)) T

/-- A jump or branch of any kind in a branch delay slot stops the model (R171), BCzT and BCzF where the unit is usable, since the
usability test comes first (47_coprocessor.md R196, 30_encoding.md R83 step 4; CoprocessorUnusable says what they do where it is
not). -/
def Obligations.BranchInDelaySlot : Prop :=
  ∀ (s : State) (rs rt rd : RegIdx) (offset : BitVec 16) (target : BitVec 26) (z : BitVec 2) (i : Instr), s.ds ≠ none →
    (i ∈ [Instr.j target, .jal target, .jr rs, .jalr rs rd, .beq rs rt offset, .bne rs rt offset, .blez rs offset,
        .bgtz rs offset, .bltz rs offset, .bgez rs offset, .bltzal rs offset, .bgezal rs offset] →
      exec i s = .fault .branchInDelaySlot) ∧
    ((z, i) ∈
        [(0, Instr.bc0t offset), (0, .bc0f offset), (1, .bc1t offset), (1, .bc1f offset), (2, .bc2t offset),
         (2, .bc2f offset), (3, .bc3t offset), (3, .bc3f offset)] →
      s.sr.cu.getLsbD z.toNat = true → exec i s = .fault .branchInDelaySlot)

/-- The delay: after a jump or branch that went to `t`, the instruction at `t`, which stands in the delay slot, goes on to the
target if the transfer was taken and else to the instruction after the slot, unless it takes an exception (R170; 10_state.md
R16). -/
def Obligations.DelaySlotThenTarget : Prop :=
  ∀ (i k : Instr) (s t u : State) (d : DelaySlot), s.Inv → s.ds = none → exec i s = .next t → t.ds = some d →
    t.entered = false → exec k t = .next u → u.entered = false →
    t.pc = s.pc + 4 ∧ u.pc = if d.taken then d.target else s.pc + 8

/-! ### Exceptions by instruction -/

/-- SYSCALL and BREAK take their exceptions, whatever their code field and mode (46_special.md R190 to R192). That SYSCALL does so
for every code field is the spec's decision D36, the sources say it of BREAK only (log 36). -/
def Obligations.SystemCallAndBreak : Prop :=
  ∀ (s : State) (code : BitVec 20),
    (∃ t, exec (.syscall code) s = .next t ∧ Raised s t .sys) ∧ (∃ t, exec (.brk code) s = .next t ∧ Raised s t .bp)

/-- The TLB instructions raise RI in every mode (48_cp0.md R216). -/
def Obligations.TlbInstructions : Prop :=
  ∀ (s : State) (i : Instr), i ∈ [Instr.tlbr, .tlbwi, .tlbwr, .tlbp] → ∃ t, exec i s = .next t ∧ Raised s t .ri

/-- A coprocessor instruction whose unit is not usable raises CpU with its number: for z = 1 to 3 where `Cu[z]` is clear, for
CTC0, CFC0 and COP0 in user mode with Cu0 clear, for BCzT and BCzF where `Cu[z]` is clear in either mode and in a delay slot too
(47_coprocessor.md R196 to R205). Behind a BCzT or BCzF whose condition holds, the second instruction of the stream is the one at
its target (70_reset_and_hazards.md R315; in a delay slot that is the model's choice, log 40). For all of them but BCzT and
BCzF this is the only way on: where the unit is usable they stop. -/
def Obligations.CoprocessorUnusable : Prop :=
  ∀ (s : State) (rt rd base : RegIdx) (offset : BitVec 16) (cofun : BitVec 25) (z : BitVec 2) (sense : Bool) (i : Instr),
    ((z, i) ∈
        [(1, Instr.mfc1 rt rd), (1, .cfc1 rt rd), (1, .mtc1 rt rd), (1, .ctc1 rt rd), (1, .cop1 cofun),
         (1, .lwc1 rt offset base), (1, .swc1 rt offset base), (2, .mfc2 rt rd), (2, .cfc2 rt rd), (2, .mtc2 rt rd),
         (2, .ctc2 rt rd), (2, .cop2 cofun), (2, .lwc2 rt offset base), (2, .swc2 rt offset base), (3, .mfc3 rt rd),
         (3, .cfc3 rt rd), (3, .mtc3 rt rd), (3, .ctc3 rt rd), (3, .cop3 cofun), (3, .lwc3 rt offset base),
         (3, .swc3 rt offset base)] →
      s.sr.cu.getLsbD z.toNat = false → ∃ t, exec i s = .next t ∧ Raised s t (.cpU z)) ∧
    (i ∈ [Instr.cfc0 rt rd, .ctc0 rt rd, .cop0 cofun] → s.sr.kuc = true → s.sr.cu.getLsbD 0 = false →
      ∃ t, exec i s = .next t ∧ Raised s t (.cpU 0)) ∧
    ((z, sense, i) ∈
        [(0, true, Instr.bc0t offset), (0, false, .bc0f offset), (1, true, .bc1t offset), (1, false, .bc1f offset),
         (2, true, .bc2t offset), (2, false, .bc2f offset), (3, true, .bc3t offset), (3, false, .bc3f offset)] →
      s.sr.cu.getLsbD z.toNat = false →
      ∃ (t : State) (T : Word), exec i s = .next t ∧ (T.toNat : Int) = (s.pc.toNat + 4 + 4 * offset.toInt) % 2 ^ 32 ∧
        Entered s t (.cpU z) (s.skipped (if s.now.cpc.getLsbD z.toNat = sense then T else s.npc + 4)).streamWrites)

/-- The same instructions but BCzT and BCzF stop the model by name where the unit is marked usable (R197 to R203), and LWC0 and
SWC0 do always (R208). -/
def Obligations.CoprocessorStops : Prop :=
  ∀ (s : State) (rt rd base : RegIdx) (offset : BitVec 16) (cofun : BitVec 25) (z : BitVec 2) (i : Instr),
    ((z, i) ∈
        [(1, Instr.mfc1 rt rd), (1, .cfc1 rt rd), (1, .mtc1 rt rd), (1, .ctc1 rt rd), (1, .cop1 cofun),
         (1, .lwc1 rt offset base), (1, .swc1 rt offset base), (2, .mfc2 rt rd), (2, .cfc2 rt rd), (2, .mtc2 rt rd),
         (2, .ctc2 rt rd), (2, .cop2 cofun), (2, .lwc2 rt offset base), (2, .swc2 rt offset base), (3, .mfc3 rt rd),
         (3, .cfc3 rt rd), (3, .mtc3 rt rd), (3, .ctc3 rt rd), (3, .cop3 cofun), (3, .lwc3 rt offset base),
         (3, .swc3 rt offset base)] →
      s.sr.cu.getLsbD z.toNat = true → exec i s = .refused (.unimplementedCoprocessor z)) ∧
    (i ∈ [Instr.cfc0 rt rd, .ctc0 rt rd, .cop0 cofun] → (s.sr.kuc = false ∨ s.sr.cu.getLsbD 0 = true) →
      exec i s = .refused (.unimplementedCoprocessor 0)) ∧
    (i ∈ [Instr.lwc0 rt offset base, .swc0 rt offset base] → exec i s = .refused .undefinedCoprocessor0Transfer)

/-! ### CP0 (48_cp0.md, 10_state.md) -/

/-- The bits of the Status, Cause and DCIC words, reserved bits zero, and the value of PRId (10_state.md R23, R29, R30, R35,
R36). -/
def Obligations.Cp0Layouts : Prop :=
  (∀ (r : Status) (k : Nat), k < 32 →
    r.toWord.getLsbD k =
      if 28 ≤ k then r.cu.getLsbD (k - 28) else if k = 22 then r.bev else if k = 20 then r.pe else if k = 18 then r.pz
      else if k = 16 then r.isC else if 8 ≤ k ∧ k ≤ 15 then r.mask.getLsbD (k - 8) else if k = 5 then r.kuo
      else if k = 4 then r.ieo else if k = 3 then r.kup else if k = 2 then r.iep else if k = 1 then r.kuc
      else if k = 0 then r.iec else false) ∧
  (∀ (r : Cause) (ip : BitVec 6) (k : Nat), k < 32 →
    (r.toWord ip).getLsbD k =
      if k = 31 then r.bd else if k = 30 then r.bt else if 28 ≤ k then r.ce.getLsbD (k - 28)
      else if 10 ≤ k ∧ k ≤ 15 then ip.getLsbD (k - 10) else if 8 ≤ k ∧ k ≤ 9 then r.sw.getLsbD (k - 8)
      else if 2 ≤ k ∧ k ≤ 5 then r.excCode.getLsbD (k - 2) else false) ∧
  (∀ (r : Dcic) (k : Nat), k < 32 →
    r.toWord.getLsbD k =
      if k = 31 then r.tr else if k = 30 then r.ud else if k = 29 then r.kd else if k = 28 then r.te
      else if k = 27 then r.dw else if k = 26 then r.dr else if k = 25 then r.dae else if k = 24 then r.pce
      else if k = 23 then r.de else if k = 5 then r.t else if k = 4 then r.w else if k = 3 then r.r
      else if k = 2 then r.da else if k = 1 then r.pc else if k = 0 then r.db else false) ∧
  ∀ p : Params, (prid p).toNat = (match p.part with | .lr33300 => 0x0A00 | .lr33310 => 0x0B00) + p.pridRev.toNat

/-- MFC0 of a register that exists is a delayed load of its value; Cause shows the levels of INT (R210 to R212, R217). The load
delay is the spec's decision D21 (log 21), and that Cause.IP shows INT also while INTMASK is asserted is its decision D28
(log 28). -/
def Obligations.Mfc0Reads : Prop :=
  ∀ (s : State) (rt rd : RegIdx) (v : Word), (s.sr.kuc = false ∨ s.sr.cu.getLsbD 0 = true) →
    (rd, v) ∈
      [(3, s.bpc), (5, s.bda), (6, s.tar), (7, s.dcic.toWord), (8, s.badA), (9, s.bdam), (11, s.bpcm),
       (12, s.sr.toWord), (13, s.cause.toWord s.now.int), (14, s.epc), (15, prid s.params)] →
    ∃ t, exec (.mfc0 rt rd) s = .next t ∧ RegsKept s t ∧ t.ld = (if rt = 0 then none else some ⟨rt, v⟩) ∧
      Advanced s t ∧ SameHiLo s t ∧ SameCp0 s t ∧ SameMemory s t ∧ SameOutside s t ∧ t.entered = s.entered

/-- MFC0 and MTC0 of the TLB's registers raise RI in every mode; of registers 16 to 31, where they may run, they are no
operation; that MFC0 then keeps x[rt] and makes no pending load is the spec's decision D20 (R211; log 20). -/
def Obligations.Cp0NumbersNotThere : Prop :=
  ∀ (s : State) (rt rd : RegIdx) (i : Instr), i ∈ [Instr.mfc0 rt rd, .mtc0 rt rd] →
    (rd ∈ ([0, 1, 2, 4, 10] : List RegIdx) → ∃ t, exec i s = .next t ∧ Raised s t .ri) ∧
    (16 ≤ rd.toNat → (s.sr.kuc = false ∨ s.sr.cu.getLsbD 0 = true) →
      ∃ t, exec i s = .next t ∧ RegsKept s t ∧ t.ld = none ∧ Advanced s t ∧ SameHiLo s t ∧ SameCp0 s t ∧
        SameMemory s t ∧ SameOutside s t ∧ t.entered = s.entered)

/-- MTC0 to the Status register, as a word: PE is cleared by a one and kept by a zero, TS and the reserved bits stay zero
(10_state.md R28). -/
def Obligations.Mtc0Status : Prop :=
  ∀ (s : State) (rt : RegIdx), (s.sr.kuc = false ∨ s.sr.cu.getLsbD 0 = true) →
    ∃ t, exec (.mtc0 rt 12) s = .next t ∧
      t.sr.toWord = (s.rt rt &&& 0xF045FF3F) ||| ((s.sr.toWord &&& ~~~s.rt rt) &&& 0x00100000) ∧
      RegsKept s t ∧ t.ld = none ∧ Advanced s t ∧ SameHiLo s t ∧ t.dcic = s.dcic ∧ SameSaved s t ∧
      SameBreakpoints s t ∧ SameMemory s t ∧ SameOutside s t ∧ t.entered = s.entered

/-- MTC0 to Cause writes its Sw bits only (R31; log 17). -/
def Obligations.Mtc0Cause : Prop :=
  ∀ (s : State) (rt : RegIdx), (s.sr.kuc = false ∨ s.sr.cu.getLsbD 0 = true) →
    ∃ t, exec (.mtc0 rt 13) s = .next t ∧
      (∀ ip, t.cause.toWord ip = (s.cause.toWord ip &&& ~~~0x300) ||| (s.rt rt &&& 0x300)) ∧
      RegsKept s t ∧ t.ld = none ∧ Advanced s t ∧ SameHiLo s t ∧ t.sr = s.sr ∧ t.dcic = s.dcic ∧ t.epc = s.epc ∧
      t.badA = s.badA ∧ t.tar = s.tar ∧ SameBreakpoints s t ∧ SameMemory s t ∧ SameOutside s t ∧ t.entered = s.entered

/-- MTC0 to DCIC writes all but the reserved bits, and MTC0 to BPC, BDA, BDAM and BPCM writes the whole word (R37 to R39). -/
def Obligations.Mtc0Debug : Prop :=
  ∀ (s : State) (rt rd : RegIdx), (s.sr.kuc = false ∨ s.sr.cu.getLsbD 0 = true) →
    rd ∈ ([3, 5, 7, 9, 11] : List RegIdx) →
    ∃ t, exec (.mtc0 rt rd) s = .next t ∧
      t.dcic.toWord = (if rd = 7 then s.rt rt &&& 0xFF80003F else s.dcic.toWord) ∧
      t.bpc = (if rd = 3 then s.rt rt else s.bpc) ∧ t.bda = (if rd = 5 then s.rt rt else s.bda) ∧
      t.bdam = (if rd = 9 then s.rt rt else s.bdam) ∧ t.bpcm = (if rd = 11 then s.rt rt else s.bpcm) ∧
      RegsKept s t ∧ t.ld = none ∧ Advanced s t ∧ SameHiLo s t ∧ t.sr = s.sr ∧ SameSaved s t ∧ SameMemory s t ∧
      SameOutside s t ∧ t.entered = s.entered

/-- MTC0 to TAR, BadA and PRId has no effect on any register (R32, R33, R35; log 18); MTC0 to EPC completes and changes EPC
only, to the free value (R34; log 19). -/
def Obligations.Mtc0ReadOnlyAndEpc : Prop :=
  ∀ (s : State) (rt rd : RegIdx), (s.sr.kuc = false ∨ s.sr.cu.getLsbD 0 = true) →
    rd ∈ ([6, 8, 14, 15] : List RegIdx) →
    ∃ t, exec (.mtc0 rt rd) s = .next t ∧
      t.epc = (if rd = 14 then Config.epcAfterWrite s.draws (s.rt rt) else s.epc) ∧
      RegsKept s t ∧ t.ld = none ∧ Advanced s t ∧ SameHiLo s t ∧ t.sr = s.sr ∧ t.dcic = s.dcic ∧ t.cause = s.cause ∧
      t.badA = s.badA ∧ t.tar = s.tar ∧ SameBreakpoints s t ∧ SameMemory s t ∧ SameOutside s t ∧ t.entered = s.entered

/-- RFE, as a word: `SR[3:0] <- SR[5:2]`, every other bit kept; it does not jump and changes nothing else (R214). -/
def Obligations.ReturnFromException : Prop :=
  ∀ s : State, (s.sr.kuc = false ∨ s.sr.cu.getLsbD 0 = true) →
    ∃ t, exec .rfe s = .next t ∧
      t.sr.toWord = (s.sr.toWord &&& 0xFFFFFFF0) ||| ((s.sr.toWord >>> 2) &&& 0xF) ∧
      RegsKept s t ∧ t.ld = none ∧ Advanced s t ∧ SameHiLo s t ∧ t.dcic = s.dcic ∧ SameSaved s t ∧
      SameBreakpoints s t ∧ SameMemory s t ∧ SameOutside s t ∧ t.entered = s.entered

/-- MTC0, MFC0 and RFE in user mode with Cu0 clear raise RI (R210). -/
def Obligations.PrivilegedInstructions : Prop :=
  ∀ (s : State) (rt rd : RegIdx) (i : Instr), s.sr.kuc = true → s.sr.cu.getLsbD 0 = false →
    i ∈ [Instr.mfc0 rt rd, .mtc0 rt rd, .rfe] → ∃ t, exec i s = .next t ∧ Raised s t .ri

/-- An exception entry pushes the status stack, as a word: `SR[5:0] <- SR[3:0] ++ 00`, every other bit kept (60_exceptions.md
R251); RFE run in the entered state completes and gives back the four bits that the entry saved (48_cp0.md R214), every bit
above the stack kept and the old pair left as the entry wrote it. -/
def Obligations.StatusStack : Prop :=
  ∀ (s t : State) (e : Exc) (altered : Bool), t = s.enterException e altered →
    t.sr.toWord = (s.sr.toWord &&& 0xFFFFFFC0) ||| ((s.sr.toWord &&& 0xF) <<< 2) ∧
    ∃ u, exec .rfe t = .next u ∧ u.sr.toWord &&& 0xF = s.sr.toWord &&& 0xF ∧
      u.sr.toWord &&& 0xFFFFFFF0 = t.sr.toWord &&& 0xFFFFFFF0

/-- The default ExcCode values of R231, which the source's lost table does not give (log 3), the Debug exception with the code
of BREAK. -/
def Obligations.DefaultExceptionCodes : Prop :=
  ∀ (a : Word) (z : BitVec 2),
    [Exc.int, .adEL a, .adES a, .ibe, .dbe, .sys, .bp, .ri, .cpU z, .ovf, .debug].map (Exc.code .default) =
      [0, 4, 5, 6, 7, 8, 9, 10, 11, 12, 9]

/-! ### Loads and stores (40_load_store.md, 20_memory.md) -/

/-- LB, LBU, LH, LHU and LW of an accessible address, without a bus error: the value is the bytes at the address (AddressMapping
says what these are) in the byte order, extended, and is pending for one step (R100 to R106, 20_memory.md R56). -/
def Obligations.Loads : Prop :=
  ∀ (s : State) (rt base : RegIdx) (offset : BitVec 16) (va : Word), va = s.address base offset →
    (s.accessible va true false → ¬s.BusError false va 1 →
      (∃ t v, exec (.lb rt offset base) s = .next t ∧ Loaded s t va rt v ∧ v.toInt = (s.byteAt va).toInt) ∧
      (∃ t v, exec (.lbu rt offset base) s = .next t ∧ Loaded s t va rt v ∧ v.toNat = (s.byteAt va).toNat)) ∧
    (s.accessible va (decide (va.toNat % 2 = 0)) false → ¬s.BusError false va 2 →
      ∃ h : BitVec 16,
        h.toNat = (if s.params.bigEndian then (s.byteAt va).toNat * 256 + (s.byteAt (va + 1)).toNat
          else (s.byteAt (va + 1)).toNat * 256 + (s.byteAt va).toNat) ∧
        (∃ t v, exec (.lh rt offset base) s = .next t ∧ Loaded s t va rt v ∧ v.toInt = h.toInt) ∧
        (∃ t v, exec (.lhu rt offset base) s = .next t ∧ Loaded s t va rt v ∧ v.toNat = h.toNat)) ∧
    (s.accessible va (decide (va.toNat % 4 = 0)) false → ¬s.BusError false va 4 →
      ∃ t v, exec (.lw rt offset base) s = .next t ∧ Loaded s t va rt v ∧
        v.toNat =
          if s.params.bigEndian then
            (((s.byteAt va).toNat * 256 + (s.byteAt (va + 1)).toNat) * 256 + (s.byteAt (va + 2)).toNat) * 256 +
              (s.byteAt (va + 3)).toNat
          else
            (((s.byteAt (va + 3)).toNat * 256 + (s.byteAt (va + 2)).toNat) * 256 + (s.byteAt (va + 1)).toNat) * 256 +
              (s.byteAt va).toNat)

/-- LWL and LWR at any accessible address, by the tables of R107 and R108, where no bus error ends the transaction on the bytes
of 20_memory.md R58; the old value is that of the register with the pending load landed (10_state.md R18). -/
def Obligations.UnalignedLoads : Prop :=
  ∀ (s : State) (rt base : RegIdx) (offset : BitVec 16) (va wa W R : Word) (k : Nat), va = s.address base offset →
    wa = va &&& 0xFFFFFFFC → W = s.wordAt wa → R = s.settled rt → k = va.toNat % 4 → s.accessible va true false →
    ((if s.params.bigEndian then ¬s.BusError false va (4 - k) else ¬s.BusError false wa (k + 1)) →
     ∃ t v, exec (.lwl rt offset base) s = .next t ∧ Loaded s t va rt v ∧
      v = match va.toNat % 4, s.params.bigEndian with
        | 0, true => W
        | 1, true => (W <<< 8) ||| (R &&& 0x000000FF)
        | 2, true => (W <<< 16) ||| (R &&& 0x0000FFFF)
        | _, true => (W <<< 24) ||| (R &&& 0x00FFFFFF)
        | 0, false => (W <<< 24) ||| (R &&& 0x00FFFFFF)
        | 1, false => (W <<< 16) ||| (R &&& 0x0000FFFF)
        | 2, false => (W <<< 8) ||| (R &&& 0x000000FF)
        | _, false => W) ∧
    ((if s.params.bigEndian then ¬s.BusError false wa (k + 1) else ¬s.BusError false va (4 - k)) →
     ∃ t v, exec (.lwr rt offset base) s = .next t ∧ Loaded s t va rt v ∧
      v = match va.toNat % 4, s.params.bigEndian with
        | 0, true => (R &&& 0xFFFFFF00) ||| (W >>> 24)
        | 1, true => (R &&& 0xFFFF0000) ||| (W >>> 16)
        | 2, true => (R &&& 0xFF000000) ||| (W >>> 8)
        | _, true => W
        | 0, false => W
        | 1, false => (R &&& 0xFF000000) ||| (W >>> 8)
        | 2, false => (R &&& 0xFFFF0000) ||| (W >>> 16)
        | _, false => (R &&& 0xFFFFFF00) ||| (W >>> 24))

/-- SB, SH and SW to an accessible address complete; no byte outside the one, two or four changes, and none where the platform has
no writable memory (00_scope.md R4; log 27); where BERR ends the store, what the bytes read as is open from then on, of read-only
memory too (20_memory.md R63, 70_reset_and_hazards.md R318; log 39); without a bus error, in writable memory, and where the bytes of the word lie in
different cells, the address reads back the low byte, the low halfword, the word, and a fetch there reads the word (R109 to
R111, 20_memory.md R56). -/
def Obligations.Stores : Prop :=
  ∀ (s : State) (rt base : RegIdx) (offset : BitVec 16) (va : Word), va = s.address base offset →
    (s.accessible va true true →
      ∃ t, exec (.sb rt offset base) s = .next t ∧ Stored s t va va 1 ∧
        (¬s.BusError true va 1 → s.inRam va 1 → (t.byteAt va).toNat = (s.rt rt).toNat % 2 ^ 8)) ∧
    (s.accessible va (decide (va.toNat % 2 = 0)) true →
      ∃ t, exec (.sh rt offset base) s = .next t ∧ Stored s t va va 2 ∧
        (¬s.BusError true va 2 → s.inRam va 2 → s.cellOf va ≠ s.cellOf (va + 1) →
          (t.halfAt va).toNat = (s.rt rt).toNat % 2 ^ 16)) ∧
    (s.accessible va (decide (va.toNat % 4 = 0)) true →
      ∃ t, exec (.sw rt offset base) s = .next t ∧ Stored s t va va 4 ∧
        (¬s.BusError true va 4 → s.inRam va 4 → s.separateBytes va → t.wordAt va = s.rt rt ∧ t.codeAt va = s.rt rt))

/-- SWL and SWR to any accessible address complete; the bytes they may change are those of 20_memory.md R58; without a bus error,
in writable memory, and where the bytes of the word lie in different cells, the word becomes what R112 and R113 say. -/
def Obligations.UnalignedStores : Prop :=
  ∀ (s : State) (rt base : RegIdx) (offset : BitVec 16) (va wa W R : Word) (k : Nat), va = s.address base offset →
    wa = va &&& 0xFFFFFFFC → W = s.wordAt wa → R = s.rt rt → k = va.toNat % 4 → s.accessible va true true →
    (∃ t, exec (.swl rt offset base) s = .next t ∧
      (if s.params.bigEndian then Stored s t va va (4 - k) else Stored s t va wa (k + 1)) ∧
      ((if s.params.bigEndian then ¬s.BusError true va (4 - k) else ¬s.BusError true wa (k + 1)) → s.inRam wa 4 →
        s.separateBytes wa →
        t.wordAt wa =
          (R >>> (if s.params.bigEndian then 8 * k else 8 * (3 - k))) |||
            (W &&& ~~~((0xFFFFFFFF : Word) >>> (if s.params.bigEndian then 8 * k else 8 * (3 - k)))))) ∧
    (∃ t, exec (.swr rt offset base) s = .next t ∧
      (if s.params.bigEndian then Stored s t va wa (k + 1) else Stored s t va va (4 - k)) ∧
      ((if s.params.bigEndian then ¬s.BusError true wa (k + 1) else ¬s.BusError true va (4 - k)) → s.inRam wa 4 →
        s.separateBytes wa →
        t.wordAt wa =
          (R <<< (if s.params.bigEndian then 8 * (3 - k) else 8 * k)) |||
            (W &&& (((1 : Word) <<< (if s.params.bigEndian then 8 * (3 - k) else 8 * k)) - 1))))

/-- A misaligned word or halfword access, and any data access in user mode to an address with bit 31 set, raises AdEL for a load
and AdES for a store, with the address (20_memory.md R52, R59; 60_exceptions.md R235, R236). -/
def Obligations.AddressErrors : Prop :=
  ∀ (s : State) (rt base : RegIdx) (offset : BitVec 16) (va : Word) (i : Instr), va = s.address base offset →
    (i ∈ [Instr.lb rt offset base, .lbu rt offset base, .lh rt offset base, .lhu rt offset base, .lw rt offset base,
        .lwl rt offset base, .lwr rt offset base] →
      ((s.sr.kuc = true ∧ va.getLsbD 31 = true) ∨ (i = .lw rt offset base ∧ va.toNat % 4 ≠ 0) ∨
        ((i = .lh rt offset base ∨ i = .lhu rt offset base) ∧ va.toNat % 2 ≠ 0)) →
      ∃ t, exec i s = .next t ∧ Raised s t (.adEL va)) ∧
    (i ∈ [Instr.sb rt offset base, .sh rt offset base, .sw rt offset base, .swl rt offset base, .swr rt offset base] →
      ((s.sr.kuc = true ∧ va.getLsbD 31 = true) ∨ (i = .sw rt offset base ∧ va.toNat % 4 ≠ 0) ∨
        (i = .sh rt offset base ∧ va.toNat % 2 ≠ 0)) →
      ∃ t, exec i s = .next t ∧ Raised s t (.adES va))

/-- After the address check: with IsC set a load or store stops the model (20_memory.md R72); with IsC clear a data-address
breakpoint that traps takes the Debug exception with its status bits posted and makes no access (60_exceptions.md R272, R274);
else a bus error on a load, of the input or of the platform at one of the bytes that the load reads (R57, R58), takes DBE and
loads nothing (20_memory.md R62). This order is the spec's decision D15 (log 15); that a parity error is logged also where BERR
ends the access (log 47), and that every load makes the transaction that BERR can end, none being served by the D-Cache (log 51),
are the model's choices. -/
def Obligations.DataAccessEnds : Prop :=
  ∀ (s : State) (rt base : RegIdx) (offset : BitVec 16) (va first : Word) (k n : Nat) (write : Bool) (i : Instr),
    va = s.address base offset → k = va.toNat % 4 →
    (write, i, first, n) ∈
      [(false, Instr.lb rt offset base, va, 1), (false, .lbu rt offset base, va, 1), (false, .lh rt offset base, va, 2),
       (false, .lhu rt offset base, va, 2), (false, .lw rt offset base, va, 4),
       (false, .lwl rt offset base, if s.params.bigEndian then (va, 4 - k) else (va &&& 0xFFFFFFFC, k + 1)),
       (false, .lwr rt offset base, if s.params.bigEndian then (va &&& 0xFFFFFFFC, k + 1) else (va, 4 - k)),
       (true, .sb rt offset base, va, 1), (true, .sh rt offset base, va, 2), (true, .sw rt offset base, va, 4),
       (true, .swl rt offset base, if s.params.bigEndian then (va, 4 - k) else (va &&& 0xFFFFFFFC, k + 1)),
       (true, .swr rt offset base, if s.params.bigEndian then (va &&& 0xFFFFFFFC, k + 1) else (va, 4 - k))] →
    (i ∈ [Instr.lw rt offset base, .sw rt offset base] → va.toNat % 4 = 0) →
    (i ∈ [Instr.lh rt offset base, .lhu rt offset base, .sh rt offset base] → va.toNat % 2 = 0) →
    ¬(s.sr.kuc = true ∧ va.getLsbD 31 = true) →
    (s.sr.isC = true → exec i s = .refused .isolatedCache) ∧
    (s.sr.isC = false → s.daHit va write = true → s.dcic.tr = true →
      ∃ t, exec i s = .next t ∧
        Raised { s with dcic := { s.dcic with db := true, da := true, w := s.dcic.w || write, r := s.dcic.r || !write } }
          t .debug) ∧
    (s.sr.isC = false → ¬(s.daHit va write = true ∧ s.dcic.tr = true) → write = false →
      s.BusError write first n →
      ∃ s1 t, exec i s = .next t ∧ Raised s1 t .dbe ∧ DataPosted s s1 va false ∧
        s1 = { s with sr := { s.sr with pe := s.sr.pe || s.now.parityData }, dcic := s1.dcic })
end

