-- ==== Sys2Proof/Laws/Decode.lean ====
section
/-! SUPPORT. The fields of the five word formats (30_encoding.md R81), and a word put together from its fields. -/

namespace Sys2Proof

theorem rWord_toNat (op : BitVec 6) (rs : BitVec 5) (rt : BitVec 5) (rd : BitVec 5) (shamt : BitVec 5) (funct : BitVec 6) :
    (rWord op rs rt rd shamt funct).toNat = op.toNat * 2 ^ 26 + rs.toNat * 2 ^ 21 + rt.toNat * 2 ^ 16 + rd.toNat * 2 ^ 11 + shamt.toNat * 2 ^ 6 + funct.toNat := by
  show (op ++ rs ++ rt ++ rd ++ shamt ++ funct : BitVec (6 + 5 + 5 + 5 + 5 + 6)).toNat = _
  simp only [BitVec.toNat_append]
  rw [← Nat.shiftLeft_add_eq_or_of_lt (rs).isLt]
  rw [← Nat.shiftLeft_add_eq_or_of_lt (rt).isLt]
  rw [← Nat.shiftLeft_add_eq_or_of_lt (rd).isLt]
  rw [← Nat.shiftLeft_add_eq_or_of_lt (shamt).isLt]
  rw [← Nat.shiftLeft_add_eq_or_of_lt (funct).isLt]
  simp only [Nat.shiftLeft_eq]
  omega

@[simp] theorem opOf_rWord (op : BitVec 6) (rs : BitVec 5) (rt : BitVec 5) (rd : BitVec 5) (shamt : BitVec 5) (funct : BitVec 6) : opOf (rWord op rs rt rd shamt funct) = op := by
  apply BitVec.eq_of_toNat_eq
  rw [opOf, BitVec.extractLsb'_toNat, rWord_toNat, Nat.shiftRight_eq_div_pow]
  have hop := op.isLt
  have hrs := rs.isLt
  have hrt := rt.isLt
  have hrd := rd.isLt
  have hshamt := shamt.isLt
  have hfunct := funct.isLt
  omega

@[simp] theorem rsOf_rWord (op : BitVec 6) (rs : BitVec 5) (rt : BitVec 5) (rd : BitVec 5) (shamt : BitVec 5) (funct : BitVec 6) : rsOf (rWord op rs rt rd shamt funct) = rs := by
  apply BitVec.eq_of_toNat_eq
  rw [rsOf, BitVec.extractLsb'_toNat, rWord_toNat, Nat.shiftRight_eq_div_pow]
  have hop := op.isLt
  have hrs := rs.isLt
  have hrt := rt.isLt
  have hrd := rd.isLt
  have hshamt := shamt.isLt
  have hfunct := funct.isLt
  omega

@[simp] theorem rtOf_rWord (op : BitVec 6) (rs : BitVec 5) (rt : BitVec 5) (rd : BitVec 5) (shamt : BitVec 5) (funct : BitVec 6) : rtOf (rWord op rs rt rd shamt funct) = rt := by
  apply BitVec.eq_of_toNat_eq
  rw [rtOf, BitVec.extractLsb'_toNat, rWord_toNat, Nat.shiftRight_eq_div_pow]
  have hop := op.isLt
  have hrs := rs.isLt
  have hrt := rt.isLt
  have hrd := rd.isLt
  have hshamt := shamt.isLt
  have hfunct := funct.isLt
  omega

@[simp] theorem rdOf_rWord (op : BitVec 6) (rs : BitVec 5) (rt : BitVec 5) (rd : BitVec 5) (shamt : BitVec 5) (funct : BitVec 6) : rdOf (rWord op rs rt rd shamt funct) = rd := by
  apply BitVec.eq_of_toNat_eq
  rw [rdOf, BitVec.extractLsb'_toNat, rWord_toNat, Nat.shiftRight_eq_div_pow]
  have hop := op.isLt
  have hrs := rs.isLt
  have hrt := rt.isLt
  have hrd := rd.isLt
  have hshamt := shamt.isLt
  have hfunct := funct.isLt
  omega

@[simp] theorem shamtOf_rWord (op : BitVec 6) (rs : BitVec 5) (rt : BitVec 5) (rd : BitVec 5) (shamt : BitVec 5) (funct : BitVec 6) : shamtOf (rWord op rs rt rd shamt funct) = shamt := by
  apply BitVec.eq_of_toNat_eq
  rw [shamtOf, BitVec.extractLsb'_toNat, rWord_toNat, Nat.shiftRight_eq_div_pow]
  have hop := op.isLt
  have hrs := rs.isLt
  have hrt := rt.isLt
  have hrd := rd.isLt
  have hshamt := shamt.isLt
  have hfunct := funct.isLt
  omega

@[simp] theorem functOf_rWord (op : BitVec 6) (rs : BitVec 5) (rt : BitVec 5) (rd : BitVec 5) (shamt : BitVec 5) (funct : BitVec 6) : functOf (rWord op rs rt rd shamt funct) = funct := by
  apply BitVec.eq_of_toNat_eq
  rw [functOf, BitVec.extractLsb'_toNat, rWord_toNat, Nat.shiftRight_eq_div_pow]
  have hop := op.isLt
  have hrs := rs.isLt
  have hrt := rt.isLt
  have hrd := rd.isLt
  have hshamt := shamt.isLt
  have hfunct := funct.isLt
  omega

theorem iWord_toNat (op : BitVec 6) (rs : BitVec 5) (rt : BitVec 5) (imm : BitVec 16) :
    (iWord op rs rt imm).toNat = op.toNat * 2 ^ 26 + rs.toNat * 2 ^ 21 + rt.toNat * 2 ^ 16 + imm.toNat := by
  show (op ++ rs ++ rt ++ imm : BitVec (6 + 5 + 5 + 16)).toNat = _
  simp only [BitVec.toNat_append]
  rw [← Nat.shiftLeft_add_eq_or_of_lt (rs).isLt]
  rw [← Nat.shiftLeft_add_eq_or_of_lt (rt).isLt]
  rw [← Nat.shiftLeft_add_eq_or_of_lt (imm).isLt]
  simp only [Nat.shiftLeft_eq]
  omega

@[simp] theorem opOf_iWord (op : BitVec 6) (rs : BitVec 5) (rt : BitVec 5) (imm : BitVec 16) : opOf (iWord op rs rt imm) = op := by
  apply BitVec.eq_of_toNat_eq
  rw [opOf, BitVec.extractLsb'_toNat, iWord_toNat, Nat.shiftRight_eq_div_pow]
  have hop := op.isLt
  have hrs := rs.isLt
  have hrt := rt.isLt
  have himm := imm.isLt
  omega

@[simp] theorem rsOf_iWord (op : BitVec 6) (rs : BitVec 5) (rt : BitVec 5) (imm : BitVec 16) : rsOf (iWord op rs rt imm) = rs := by
  apply BitVec.eq_of_toNat_eq
  rw [rsOf, BitVec.extractLsb'_toNat, iWord_toNat, Nat.shiftRight_eq_div_pow]
  have hop := op.isLt
  have hrs := rs.isLt
  have hrt := rt.isLt
  have himm := imm.isLt
  omega

@[simp] theorem rtOf_iWord (op : BitVec 6) (rs : BitVec 5) (rt : BitVec 5) (imm : BitVec 16) : rtOf (iWord op rs rt imm) = rt := by
  apply BitVec.eq_of_toNat_eq
  rw [rtOf, BitVec.extractLsb'_toNat, iWord_toNat, Nat.shiftRight_eq_div_pow]
  have hop := op.isLt
  have hrs := rs.isLt
  have hrt := rt.isLt
  have himm := imm.isLt
  omega

@[simp] theorem immOf_iWord (op : BitVec 6) (rs : BitVec 5) (rt : BitVec 5) (imm : BitVec 16) : immOf (iWord op rs rt imm) = imm := by
  apply BitVec.eq_of_toNat_eq
  rw [immOf, BitVec.extractLsb'_toNat, iWord_toNat, Nat.shiftRight_eq_div_pow]
  have hop := op.isLt
  have hrs := rs.isLt
  have hrt := rt.isLt
  have himm := imm.isLt
  omega

theorem jWord_toNat (op : BitVec 6) (target : BitVec 26) :
    (jWord op target).toNat = op.toNat * 2 ^ 26 + target.toNat := by
  show (op ++ target : BitVec (6 + 26)).toNat = _
  simp only [BitVec.toNat_append]
  rw [← Nat.shiftLeft_add_eq_or_of_lt (target).isLt]
  simp only [Nat.shiftLeft_eq]

@[simp] theorem opOf_jWord (op : BitVec 6) (target : BitVec 26) : opOf (jWord op target) = op := by
  apply BitVec.eq_of_toNat_eq
  rw [opOf, BitVec.extractLsb'_toNat, jWord_toNat, Nat.shiftRight_eq_div_pow]
  have hop := op.isLt
  have htarget := target.isLt
  omega

@[simp] theorem targetOf_jWord (op : BitVec 6) (target : BitVec 26) : targetOf (jWord op target) = target := by
  apply BitVec.eq_of_toNat_eq
  rw [targetOf, BitVec.extractLsb'_toNat, jWord_toNat, Nat.shiftRight_eq_div_pow]
  have hop := op.isLt
  have htarget := target.isLt
  omega

theorem codeWord_toNat (code : BitVec 20) (funct : BitVec 6) :
    (codeWord code funct).toNat = code.toNat * 2 ^ 6 + funct.toNat := by
  show (0#6 ++ code ++ funct : BitVec (6 + 20 + 6)).toNat = _
  simp only [BitVec.toNat_append]
  rw [← Nat.shiftLeft_add_eq_or_of_lt (code).isLt]
  rw [← Nat.shiftLeft_add_eq_or_of_lt (funct).isLt]
  simp only [Nat.shiftLeft_eq, BitVec.toNat_ofNat]
  omega

@[simp] theorem opOf_codeWord (code : BitVec 20) (funct : BitVec 6) : opOf (codeWord code funct) = 0 := by
  apply BitVec.eq_of_toNat_eq
  rw [opOf, BitVec.extractLsb'_toNat, codeWord_toNat, Nat.shiftRight_eq_div_pow]
  have hcode := code.isLt
  have hfunct := funct.isLt
  show _ = 0
  omega

@[simp] theorem codeOf_codeWord (code : BitVec 20) (funct : BitVec 6) : codeOf (codeWord code funct) = code := by
  apply BitVec.eq_of_toNat_eq
  rw [codeOf, BitVec.extractLsb'_toNat, codeWord_toNat, Nat.shiftRight_eq_div_pow]
  have hcode := code.isLt
  have hfunct := funct.isLt
  omega

@[simp] theorem functOf_codeWord (code : BitVec 20) (funct : BitVec 6) : functOf (codeWord code funct) = funct := by
  apply BitVec.eq_of_toNat_eq
  rw [functOf, BitVec.extractLsb'_toNat, codeWord_toNat, Nat.shiftRight_eq_div_pow]
  have hcode := code.isLt
  have hfunct := funct.isLt
  omega

theorem copWord_toNat (op : BitVec 6) (cofun : BitVec 25) :
    (copWord op cofun).toNat = op.toNat * 2 ^ 26 + 1 * 2 ^ 25 + cofun.toNat := by
  show (op ++ 1#1 ++ cofun : BitVec (6 + 1 + 25)).toNat = _
  simp only [BitVec.toNat_append]
  rw [← Nat.shiftLeft_add_eq_or_of_lt (1#1).isLt]
  rw [← Nat.shiftLeft_add_eq_or_of_lt (cofun).isLt]
  simp only [Nat.shiftLeft_eq, BitVec.toNat_ofNat]
  omega

@[simp] theorem opOf_copWord (op : BitVec 6) (cofun : BitVec 25) : opOf (copWord op cofun) = op := by
  apply BitVec.eq_of_toNat_eq
  rw [opOf, BitVec.extractLsb'_toNat, copWord_toNat, Nat.shiftRight_eq_div_pow]
  have hop := op.isLt
  have hcofun := cofun.isLt
  omega

@[simp] theorem coBitOf_copWord (op : BitVec 6) (cofun : BitVec 25) : coBitOf (copWord op cofun) = 1 := by
  apply BitVec.eq_of_toNat_eq
  rw [coBitOf, BitVec.extractLsb'_toNat, copWord_toNat, Nat.shiftRight_eq_div_pow]
  have hop := op.isLt
  have hcofun := cofun.isLt
  show _ = 1
  omega

@[simp] theorem cofunOf_copWord (op : BitVec 6) (cofun : BitVec 25) : cofunOf (copWord op cofun) = cofun := by
  apply BitVec.eq_of_toNat_eq
  rw [cofunOf, BitVec.extractLsb'_toNat, copWord_toNat, Nat.shiftRight_eq_div_pow]
  have hop := op.isLt
  have hcofun := cofun.isLt
  omega

/-- Bit 25 is the top bit of the `rs` field. -/
@[simp] theorem coBitOf_rWord (op : BitVec 6) (rs rt rd shamt : BitVec 5) (funct : BitVec 6) : coBitOf (rWord op rs rt rd shamt funct) = rs.extractLsb' 4 1 := by
  apply BitVec.eq_of_toNat_eq
  rw [coBitOf, BitVec.extractLsb'_toNat, rWord_toNat, Nat.shiftRight_eq_div_pow, BitVec.extractLsb'_toNat,
    Nat.shiftRight_eq_div_pow]
  have hop := op.isLt
  have hrs := rs.isLt
  have hrt := rt.isLt
  have hrd := rd.isLt
  have hshamt := shamt.isLt
  have hfunct := funct.isLt
  omega

/-- Bit 25 is the top bit of the `rs` field. -/
@[simp] theorem coBitOf_iWord (op : BitVec 6) (rs rt : BitVec 5) (imm : BitVec 16) : coBitOf (iWord op rs rt imm) = rs.extractLsb' 4 1 := by
  apply BitVec.eq_of_toNat_eq
  rw [coBitOf, BitVec.extractLsb'_toNat, iWord_toNat, Nat.shiftRight_eq_div_pow, BitVec.extractLsb'_toNat,
    Nat.shiftRight_eq_div_pow]
  have hop := op.isLt
  have hrs := rs.isLt
  have hrt := rt.isLt
  have himm := imm.isLt
  omega

/-! ### A word from its fields -/

theorem rWord_of_fields (w : Word) : rWord (opOf w) (rsOf w) (rtOf w) (rdOf w) (shamtOf w) (functOf w) = w := by
  apply BitVec.eq_of_toNat_eq
  rw [rWord_toNat]
  simp only [opOf, rsOf, rtOf, rdOf, shamtOf, functOf, BitVec.extractLsb'_toNat, Nat.shiftRight_eq_div_pow]
  have := w.isLt
  omega

theorem iWord_of_fields (w : Word) : iWord (opOf w) (rsOf w) (rtOf w) (immOf w) = w := by
  apply BitVec.eq_of_toNat_eq
  rw [iWord_toNat]
  simp only [opOf, rsOf, rtOf, immOf, BitVec.extractLsb'_toNat, Nat.shiftRight_eq_div_pow]
  have := w.isLt
  omega

theorem jWord_of_fields (w : Word) : jWord (opOf w) (targetOf w) = w := by
  apply BitVec.eq_of_toNat_eq
  rw [jWord_toNat]
  simp only [opOf, targetOf, BitVec.extractLsb'_toNat, Nat.shiftRight_eq_div_pow]
  have := w.isLt
  omega

theorem codeWord_of_fields (w : Word) (h : opOf w = 0) : codeWord (codeOf w) (functOf w) = w := by
  apply BitVec.eq_of_toNat_eq
  have h : (opOf w).toNat = 0 := congrArg BitVec.toNat h
  rw [codeWord_toNat]
  simp only [opOf, codeOf, functOf, BitVec.extractLsb'_toNat, Nat.shiftRight_eq_div_pow] at h ⊢
  have := w.isLt
  omega

theorem copWord_of_fields (w : Word) (h : coBitOf w = 1) : copWord (opOf w) (cofunOf w) = w := by
  apply BitVec.eq_of_toNat_eq
  have h : (coBitOf w).toNat = 1 := congrArg BitVec.toNat h
  rw [copWord_toNat]
  simp only [opOf, coBitOf, cofunOf, BitVec.extractLsb'_toNat, Nat.shiftRight_eq_div_pow] at h ⊢
  have := w.isLt
  omega

/-- A field that a row's mask covers holds the row's value of it. -/
theorem extractLsb'_of_match {w mask value : Word} (h : w &&& mask = value) (lo len : Nat)
    (hm : mask.extractLsb' lo len = BitVec.allOnes len) : w.extractLsb' lo len = value.extractLsb' lo len := by
  rw [← h, BitVec.extractLsb'_and, hm, BitVec.and_allOnes]

/-- The words of an instruction, laid out as bytes, read back as the word. -/
theorem wordOfBytes_bytesMsbFirst (w : Word) :
    wordOfBytes true (w.extractLsb' 24 8) (w.extractLsb' 16 8) (w.extractLsb' 8 8) (w.extractLsb' 0 8) = w := by
  apply BitVec.eq_of_toNat_eq
  have := w.isLt
  simp only [wordOfBytes, if_true, BitVec.toNat_append]
  rw [← Nat.shiftLeft_add_eq_or_of_lt (BitVec.isLt _), ← Nat.shiftLeft_add_eq_or_of_lt (BitVec.isLt _),
    ← Nat.shiftLeft_add_eq_or_of_lt (BitVec.isLt _)]
  simp only [Nat.shiftLeft_eq, BitVec.extractLsb'_toNat, Nat.shiftRight_eq_div_pow]
  omega

theorem wordOfBytes_bytesLsbFirst (w : Word) :
    wordOfBytes false (w.extractLsb' 0 8) (w.extractLsb' 8 8) (w.extractLsb' 16 8) (w.extractLsb' 24 8) = w := by
  have := wordOfBytes_bytesMsbFirst w
  simpa [wordOfBytes] using this

end Sys2Proof
end

