-- ==== Sys2Proof/Laws/Memory.lean ====
section
/-! SUPPORT. Laws of memory: what a byte reads as after a write, and that every operation keeps the canonical form. -/

namespace Sys2Proof.Machine

/-! ### One byte -/

@[simp] theorem Memory.read_nil (a : Nat) : Memory.read [] a = Memory.blank := rfl

theorem Memory.read_erase (m : Memory) (k a : Nat) :
    (Memory.erase m k).read a = if a = k then Memory.blank else m.read a := by
  induction m with
  | nil => simp [Memory.erase, Memory.read]
  | cons c rest ih =>
    obtain ⟨x, b⟩ := c
    simp only [Memory.erase] at ih ⊢
    by_cases hx : x = k
    · subst hx; simp only [List.filter, bne_self_eq_false, ih, Memory.read]; split <;> rfl
    · have : (x != k) = true := by simpa using hx
      simp only [List.filter, this, Memory.read, ih]
      by_cases ha : a = x
      · simp [ha, hx]
      · simp [ha]

theorem Memory.read_insert (m : Memory) (k a : Nat) (v : Byte) :
    (Memory.insert m k v).read a = if a = k then v else m.read a := by
  induction m with
  | nil => simp [Memory.insert, Memory.read]
  | cons c rest ih =>
    obtain ⟨x, b⟩ := c
    simp only [Memory.insert]
    split
    · simp only [Memory.read]
    · split
      · next h => subst h; simp only [Memory.read]; split <;> rfl
      · next h =>
        simp only [Memory.read, ih]
        by_cases ha : a = x
        · have : ¬ a = k := fun e => h (e ▸ ha)
          simp [ha]; intro e; exact absurd e.symm h
        · simp [ha]

/-- A byte reads as what was last written to it, and every other byte as before. -/
theorem Memory.read_write (m : Memory) (k a : Nat) (v : Byte) :
    (Memory.write m k v).read a = if a = k then v else m.read a := by
  unfold Memory.write
  split
  · next h => rw [Memory.read_erase, h]
  · exact Memory.read_insert m k a v

/-! ### The canonical form -/

theorem Memory.mem_insert {m : Memory} {k : Nat} {v : Byte} {c : Host.Cell} (h : c ∈ Memory.insert m k v) :
    c = (k, v) ∨ c ∈ m := by
  induction m with
  | nil => simpa [Memory.insert] using h
  | cons d rest ih =>
    obtain ⟨x, b⟩ := d
    simp only [Memory.insert] at h
    split at h
    · simpa using h
    · split at h
      · rcases List.mem_cons.mp h with h | h
        · exact .inl h
        · exact .inr (List.mem_cons_of_mem _ h)
      · rcases List.mem_cons.mp h with h | h
        · exact .inr (h ▸ List.mem_cons_self)
        · exact (ih h).imp_right (List.mem_cons_of_mem _)

theorem Memory.insert_rising {m : Memory} (k : Nat) (v : Byte) (h : m.Pairwise (fun c d => c.1 < d.1)) :
    (Memory.insert m k v).Pairwise (fun c d => c.1 < d.1) := by
  induction m with
  | nil => simp [Memory.insert]
  | cons d rest ih =>
    obtain ⟨x, b⟩ := d
    obtain ⟨h1, h2⟩ := List.pairwise_cons.mp h
    simp only [Memory.insert]
    split
    · next hk =>
      refine List.pairwise_cons.mpr ⟨fun c hc => ?_, h⟩
      rcases List.mem_cons.mp hc with rfl | hc
      · exact hk
      · exact lt_trans hk (h1 c hc)
    · split
      · next hk => subst hk; exact List.pairwise_cons.mpr ⟨h1, h2⟩
      · next hk1 hk2 =>
        refine List.pairwise_cons.mpr ⟨fun c hc => ?_, ih h2⟩
        rcases Memory.mem_insert hc with rfl | hc
        · simp only; omega
        · exact h1 c hc

/-- Every write keeps the canonical form. -/
theorem Memory.write_wf {m : Memory} {k : Nat} (v : Byte) (hk : k < 2 ^ 32) (h : Memory.wf m = true) :
    Memory.wf (Memory.write m k v) = true := by
  simp only [Memory.wf, Bool.and_eq_true, decide_eq_true_eq, List.all_eq_true, bne_iff_ne] at h ⊢
  unfold Memory.write
  split
  · exact ⟨h.1.filter _, fun c hc => h.2 c (List.mem_filter.mp hc).1⟩
  · next hv =>
    refine ⟨Memory.insert_rising k v h.1, fun c hc => ?_⟩
    rcases Memory.mem_insert hc with rfl | hc
    · exact ⟨hk, hv⟩
    · exact h.2 c hc

/-! ### The record of stores -/

theorem mem_noteAddress (l : List Nat) (k a : Nat) : a ∈ noteAddress l k ↔ a = k ∨ a ∈ l := by
  induction l with
  | nil => simp [noteAddress]
  | cons x rest ih =>
    simp only [noteAddress]
    split
    · simp
    · split
      · next h => subst h; simp
      · simp only [List.mem_cons, ih]; tauto

theorem noteAddress_rising {l : List Nat} (k : Nat) (h : l.Pairwise (· < ·)) :
    (noteAddress l k).Pairwise (· < ·) := by
  induction l with
  | nil => simp [noteAddress]
  | cons x rest ih =>
    obtain ⟨h1, h2⟩ := List.pairwise_cons.mp h
    simp only [noteAddress]
    split
    · next hk =>
      refine List.pairwise_cons.mpr ⟨fun c hc => ?_, h⟩
      rcases List.mem_cons.mp hc with rfl | hc
      · exact hk
      · exact lt_trans hk (h1 c hc)
    · split
      · exact h
      · refine List.pairwise_cons.mpr ⟨fun c hc => ?_, ih h2⟩
        rcases (mem_noteAddress rest k c).mp hc with rfl | hc
        · omega
        · exact h1 c hc

/-! ### Several bytes -/

theorem translate_lt (p : Params) (va : Word) : (translate p va).toNat < 2 ^ 32 := (translate p va).isLt

theorem storeCell_wf (p : Params) {m : Memory} {a : Nat} (b : Byte) (ha : a < 2 ^ 32) (h : Memory.wf m = true) :
    Memory.wf (storeCell p m a b) = true := by
  unfold storeCell
  split
  · exact Memory.write_wf b ha h
  · exact h
  · exact h

/-- A byte stored: where the platform has memory that can be written it is read back; every other byte reads as before. -/
theorem read_storeCell (p : Params) (m : Memory) (k a : Nat) (b : Byte) :
    (storeCell p m k b).read a = if a = k ∧ (platformAt p.platform k).place = .ram then b else m.read a := by
  unfold storeCell
  split
  · next h => simp [h, Memory.read_write]
  · next h => simp [h]
  · next h => simp [h]

theorem storeCells_wf (p : Params) (m : Memory) (va : Word) (bs : List Byte) (h : Memory.wf m = true) :
    Memory.wf (storeCells p m va bs) = true := by
  induction bs generalizing m va with
  | nil => exact h
  | cons b rest ih => exact ih _ _ (storeCell_wf p b (translate_lt p va) h)

theorem layCells_wf (p : Params) (m : Memory) (va : Word) (bs : List Byte) (h : Memory.wf m = true) :
    Memory.wf (layCells p m va bs) = true := by
  induction bs generalizing m va with
  | nil => exact h
  | cons b rest ih => exact ih _ _ (Memory.write_wf b (translate_lt p va) h)

/-- A cell that the platform does not keep as writable memory reads as before. -/
theorem read_storeCells_kept (p : Params) (m : Memory) (va : Word) (bs : List Byte) (a : Nat)
    (h : (platformAt p.platform a).place ≠ .ram) : (storeCells p m va bs).read a = m.read a := by
  induction bs generalizing m va with
  | nil => rfl
  | cons b rest ih =>
    rw [storeCells, ih, read_storeCell, if_neg]
    rintro ⟨rfl, hr⟩
    exact h hr

/-- A cell that none of the written addresses names reads as before. -/
theorem read_storeCells_outside (p : Params) (m : Memory) (va : Word) (bs : List Byte) (a : Nat)
    (h : ∀ j < bs.length, a ≠ (translate p (va + BitVec.ofNat 32 j)).toNat) :
    (storeCells p m va bs).read a = m.read a := by
  induction bs generalizing m va with
  | nil => rfl
  | cons b rest ih =>
    rw [storeCells, ih, read_storeCell, if_neg]
    · have := h 0 (by simp)
      rintro ⟨e, -⟩
      exact this (by simpa using e)
    · intro j hj
      have := h (j + 1) (by simpa using hj)
      rwa [BitVec.ofNat_add, BitVec.add_comm (BitVec.ofNat 32 j), ← BitVec.add_assoc] at this

/-- The cell of a written address in writable memory reads as its byte, where no later byte of the list went to the same
cell. -/
theorem read_storeCells_at (p : Params) (m : Memory) (va : Word) (bs : List Byte) (j : Nat) (hj : j < bs.length)
    (hr : (platformAt p.platform (translate p (va + BitVec.ofNat 32 j)).toNat).place = .ram)
    (h : ∀ k < bs.length, j < k →
      (translate p (va + BitVec.ofNat 32 j)).toNat ≠ (translate p (va + BitVec.ofNat 32 k)).toNat) :
    (storeCells p m va bs).read (translate p (va + BitVec.ofNat 32 j)).toNat = bs[j] := by
  induction bs generalizing m va j with
  | nil => simp at hj
  | cons b rest ih =>
    have step (k : Nat) : va + 1 + BitVec.ofNat 32 k = va + BitVec.ofNat 32 (k + 1) := by
      rw [BitVec.ofNat_add, BitVec.add_comm (BitVec.ofNat 32 k), ← BitVec.add_assoc]; rfl
    cases j with
    | zero =>
      rw [storeCells, read_storeCells_outside, read_storeCell, if_pos]
      · rfl
      · simpa using hr
      · intro k hk
        rw [step]
        exact h (k + 1) (by simpa using hk) (by omega)
    | succ j =>
      simp only [List.getElem_cons_succ]
      have := ih (m := storeCell p m (translate p va).toNat b) (va := va + 1) (j := j) (by simpa using hj)
        (by rw [step]; exact hr) (by
        intro k hk hjk
        rw [step, step]
        exact h (k + 1) (by simpa using hk) (by omega))
      rw [step] at this
      exact this

/-! ### What a read gives -/

/-- Where the platform has memory and no failed store left the byte open, a fetch and a load read the same byte, the memory's. -/
theorem State.readByte_memory {s : State} (kind : Access) {va : Word} (h : (s.regionOf va).place ≠ .device)
    (hf : s.cellOf va ∉ s.failed) : s.readByte kind va = s.mem.read (s.cellOf va) := by
  have hc : ¬s.failed.contains (s.cellOf va) = true := by simpa using hf
  unfold State.readByte
  split
  · exact if_neg hc
  · exact if_neg hc
  · next hd => exact absurd hd h

/-- Where the platform has memory and no failed store left a byte open, a fetch reads the word that a load reads. -/
theorem State.codeAt_eq_wordAt {s : State} {va : Word}
    (h : ∀ j < 4, (s.regionOf (va + BitVec.ofNat 32 j)).place ≠ .device ∧ s.cellOf (va + BitVec.ofNat 32 j) ∉ s.failed) :
    s.codeAt va = s.wordAt va := by
  unfold State.codeAt State.wordAt State.byteAt
  have same {a : Word} (ha : (s.regionOf a).place ≠ .device ∧ s.cellOf a ∉ s.failed) :
      s.readByte .fetch a = s.readByte .data a := by
    rw [State.readByte_memory .fetch ha.1 ha.2, State.readByte_memory .data ha.1 ha.2]
  have h0 : (s.regionOf va).place ≠ .device ∧ s.cellOf va ∉ s.failed := by simpa using h 0 (by omega)
  rw [same h0, same (a := va + 1) (h 1 (by omega)), same (a := va + 2) (h 2 (by omega)),
    same (a := va + 3) (h 3 (by omega))]

/-! ### The record of stores as cells -/

theorem mem_noteCells (p : Params) (l : List Nat) (va : Word) (n a : Nat) :
    a ∈ noteCells p l va n ↔ a ∈ l ∨ ∃ j < n, a = (translate p (va + BitVec.ofNat 32 j)).toNat := by
  induction n generalizing l va with
  | zero => simp [noteCells]
  | succ n ih =>
    have step (k : Nat) : va + 1 + BitVec.ofNat 32 k = va + BitVec.ofNat 32 (k + 1) := by
      rw [BitVec.ofNat_add, BitVec.add_comm (BitVec.ofNat 32 k), ← BitVec.add_assoc]; rfl
    rw [noteCells, ih, mem_noteAddress]
    constructor
    · rintro ((rfl | h) | ⟨j, hj, rfl⟩)
      · exact .inr ⟨0, by omega, by simp⟩
      · exact .inl h
      · exact .inr ⟨j + 1, by omega, by rw [step]⟩
    · rintro (h | ⟨j, hj, rfl⟩)
      · exact .inl (.inr h)
      · cases j with
        | zero => exact .inl (.inl (by simp))
        | succ j => exact .inr ⟨j, by omega, by rw [step]⟩

theorem noteCells_rising (p : Params) (l : List Nat) (va : Word) (n : Nat) (h : l.Pairwise (· < ·)) :
    (noteCells p l va n).Pairwise (· < ·) := by
  induction n generalizing l va with
  | zero => exact h
  | succ n ih => exact ih _ _ (noteAddress_rising _ h)

theorem noteCells_lt {p : Params} {l : List Nat} {va : Word} {n : Nat} (h : ∀ k ∈ l, k < 2 ^ 32) :
    ∀ k ∈ noteCells p l va n, k < 2 ^ 32 := by
  intro k hk
  rcases (mem_noteCells p l va n k).mp hk with hk | ⟨j, -, rfl⟩
  · exact h k hk
  · exact translate_lt p _

theorem namesCell_iff (p : Params) (first : Word) (n a : Nat) :
    namesCell p first n a = true ↔ ∃ j < n, a = (translate p (first + BitVec.ofNat 32 j)).toNat := by
  simp only [namesCell, List.any_eq_true, List.mem_range, beq_iff_eq]
  exact exists_congr fun j => and_congr_right fun _ => eq_comm

/-- A cell stays failed but where writable memory took the store. -/
theorem mem_settledCells (p : Params) (l : List Nat) (first : Word) (n a : Nat) :
    a ∈ settledCells p l first n ↔
      a ∈ l ∧ ¬((platformAt p.platform a).place = .ram ∧ ∃ j < n, a = (translate p (first + BitVec.ofNat 32 j)).toNat) := by
  rw [← namesCell_iff]; simp only [settledCells, List.mem_filter, Bool.not_eq_true', ← Bool.not_eq_true, Bool.and_eq_true,
    beq_iff_eq]

end Sys2Proof.Machine
end

