-- ==== Sys2Proof/Laws/State.lean ====
section
/-! SUPPORT. One lemma per field of State and per update of it: what the field holds after the update. All by `rfl`. -/

namespace Sys2Proof.Machine

/-! ### State.setGpr -/

@[simp] theorem State.setGpr_gpr (s : State) (i : RegIdx) (v : Word) : (s.setGpr i v).gpr = gprSet s.gpr i v := rfl
@[simp] theorem State.setGpr_hi (s : State) (i : RegIdx) (v : Word) : (s.setGpr i v).hi = s.hi := rfl
@[simp] theorem State.setGpr_lo (s : State) (i : RegIdx) (v : Word) : (s.setGpr i v).lo = s.lo := rfl
@[simp] theorem State.setGpr_pc (s : State) (i : RegIdx) (v : Word) : (s.setGpr i v).pc = s.pc := rfl
@[simp] theorem State.setGpr_npc (s : State) (i : RegIdx) (v : Word) : (s.setGpr i v).npc = s.npc := rfl
@[simp] theorem State.setGpr_ds (s : State) (i : RegIdx) (v : Word) : (s.setGpr i v).ds = s.ds := rfl
@[simp] theorem State.setGpr_ld (s : State) (i : RegIdx) (v : Word) : (s.setGpr i v).ld = s.ld := rfl
@[simp] theorem State.setGpr_sr (s : State) (i : RegIdx) (v : Word) : (s.setGpr i v).sr = s.sr := rfl
@[simp] theorem State.setGpr_cause (s : State) (i : RegIdx) (v : Word) : (s.setGpr i v).cause = s.cause := rfl
@[simp] theorem State.setGpr_epc (s : State) (i : RegIdx) (v : Word) : (s.setGpr i v).epc = s.epc := rfl
@[simp] theorem State.setGpr_badA (s : State) (i : RegIdx) (v : Word) : (s.setGpr i v).badA = s.badA := rfl
@[simp] theorem State.setGpr_tar (s : State) (i : RegIdx) (v : Word) : (s.setGpr i v).tar = s.tar := rfl
@[simp] theorem State.setGpr_dcic (s : State) (i : RegIdx) (v : Word) : (s.setGpr i v).dcic = s.dcic := rfl
@[simp] theorem State.setGpr_bpc (s : State) (i : RegIdx) (v : Word) : (s.setGpr i v).bpc = s.bpc := rfl
@[simp] theorem State.setGpr_bpcm (s : State) (i : RegIdx) (v : Word) : (s.setGpr i v).bpcm = s.bpcm := rfl
@[simp] theorem State.setGpr_bda (s : State) (i : RegIdx) (v : Word) : (s.setGpr i v).bda = s.bda := rfl
@[simp] theorem State.setGpr_bdam (s : State) (i : RegIdx) (v : Word) : (s.setGpr i v).bdam = s.bdam := rfl
@[simp] theorem State.setGpr_mem (s : State) (i : RegIdx) (v : Word) : (s.setGpr i v).mem = s.mem := rfl
@[simp] theorem State.setGpr_storedTo (s : State) (i : RegIdx) (v : Word) : (s.setGpr i v).storedTo = s.storedTo := rfl
@[simp] theorem State.setGpr_failed (s : State) (i : RegIdx) (v : Word) : (s.setGpr i v).failed = s.failed := rfl
@[simp] theorem State.setGpr_storeError (s : State) (i : RegIdx) (v : Word) : (s.setGpr i v).storeError = s.storeError := rfl
@[simp] theorem State.setGpr_lastpc (s : State) (i : RegIdx) (v : Word) : (s.setGpr i v).lastpc = s.lastpc := rfl
@[simp] theorem State.setGpr_entered (s : State) (i : RegIdx) (v : Word) : (s.setGpr i v).entered = s.entered := rfl
@[simp] theorem State.setGpr_resetHeld (s : State) (i : RegIdx) (v : Word) : (s.setGpr i v).resetHeld = s.resetHeld := rfl
@[simp] theorem State.setGpr_params (s : State) (i : RegIdx) (v : Word) : (s.setGpr i v).params = s.params := rfl
@[simp] theorem State.setGpr_env (s : State) (i : RegIdx) (v : Word) : (s.setGpr i v).env = s.env := rfl
@[simp] theorem State.setGpr_draws (s : State) (i : RegIdx) (v : Word) : (s.setGpr i v).draws = s.draws := rfl

/-! ### State.setHiLo -/

@[simp] theorem State.setHiLo_gpr (s : State) (a b : Word) : (s.setHiLo a b).gpr = s.gpr := rfl
@[simp] theorem State.setHiLo_hi (s : State) (a b : Word) : (s.setHiLo a b).hi = a := rfl
@[simp] theorem State.setHiLo_lo (s : State) (a b : Word) : (s.setHiLo a b).lo = b := rfl
@[simp] theorem State.setHiLo_pc (s : State) (a b : Word) : (s.setHiLo a b).pc = s.pc := rfl
@[simp] theorem State.setHiLo_npc (s : State) (a b : Word) : (s.setHiLo a b).npc = s.npc := rfl
@[simp] theorem State.setHiLo_ds (s : State) (a b : Word) : (s.setHiLo a b).ds = s.ds := rfl
@[simp] theorem State.setHiLo_ld (s : State) (a b : Word) : (s.setHiLo a b).ld = s.ld := rfl
@[simp] theorem State.setHiLo_sr (s : State) (a b : Word) : (s.setHiLo a b).sr = s.sr := rfl
@[simp] theorem State.setHiLo_cause (s : State) (a b : Word) : (s.setHiLo a b).cause = s.cause := rfl
@[simp] theorem State.setHiLo_epc (s : State) (a b : Word) : (s.setHiLo a b).epc = s.epc := rfl
@[simp] theorem State.setHiLo_badA (s : State) (a b : Word) : (s.setHiLo a b).badA = s.badA := rfl
@[simp] theorem State.setHiLo_tar (s : State) (a b : Word) : (s.setHiLo a b).tar = s.tar := rfl
@[simp] theorem State.setHiLo_dcic (s : State) (a b : Word) : (s.setHiLo a b).dcic = s.dcic := rfl
@[simp] theorem State.setHiLo_bpc (s : State) (a b : Word) : (s.setHiLo a b).bpc = s.bpc := rfl
@[simp] theorem State.setHiLo_bpcm (s : State) (a b : Word) : (s.setHiLo a b).bpcm = s.bpcm := rfl
@[simp] theorem State.setHiLo_bda (s : State) (a b : Word) : (s.setHiLo a b).bda = s.bda := rfl
@[simp] theorem State.setHiLo_bdam (s : State) (a b : Word) : (s.setHiLo a b).bdam = s.bdam := rfl
@[simp] theorem State.setHiLo_mem (s : State) (a b : Word) : (s.setHiLo a b).mem = s.mem := rfl
@[simp] theorem State.setHiLo_storedTo (s : State) (a b : Word) : (s.setHiLo a b).storedTo = s.storedTo := rfl
@[simp] theorem State.setHiLo_failed (s : State) (a b : Word) : (s.setHiLo a b).failed = s.failed := rfl
@[simp] theorem State.setHiLo_storeError (s : State) (a b : Word) : (s.setHiLo a b).storeError = s.storeError := rfl
@[simp] theorem State.setHiLo_lastpc (s : State) (a b : Word) : (s.setHiLo a b).lastpc = s.lastpc := rfl
@[simp] theorem State.setHiLo_entered (s : State) (a b : Word) : (s.setHiLo a b).entered = s.entered := rfl
@[simp] theorem State.setHiLo_resetHeld (s : State) (a b : Word) : (s.setHiLo a b).resetHeld = s.resetHeld := rfl
@[simp] theorem State.setHiLo_params (s : State) (a b : Word) : (s.setHiLo a b).params = s.params := rfl
@[simp] theorem State.setHiLo_env (s : State) (a b : Word) : (s.setHiLo a b).env = s.env := rfl
@[simp] theorem State.setHiLo_draws (s : State) (a b : Word) : (s.setHiLo a b).draws = s.draws := rfl

/-! ### State.land -/

@[simp] theorem State.land_gpr (s : State) : s.land.gpr = landed s.gpr s.ld := rfl
@[simp] theorem State.land_hi (s : State) : s.land.hi = s.hi := rfl
@[simp] theorem State.land_lo (s : State) : s.land.lo = s.lo := rfl
@[simp] theorem State.land_pc (s : State) : s.land.pc = s.pc := rfl
@[simp] theorem State.land_npc (s : State) : s.land.npc = s.npc := rfl
@[simp] theorem State.land_ds (s : State) : s.land.ds = s.ds := rfl
@[simp] theorem State.land_ld (s : State) : s.land.ld = none := rfl
@[simp] theorem State.land_sr (s : State) : s.land.sr = s.sr := rfl
@[simp] theorem State.land_cause (s : State) : s.land.cause = s.cause := rfl
@[simp] theorem State.land_epc (s : State) : s.land.epc = s.epc := rfl
@[simp] theorem State.land_badA (s : State) : s.land.badA = s.badA := rfl
@[simp] theorem State.land_tar (s : State) : s.land.tar = s.tar := rfl
@[simp] theorem State.land_dcic (s : State) : s.land.dcic = s.dcic := rfl
@[simp] theorem State.land_bpc (s : State) : s.land.bpc = s.bpc := rfl
@[simp] theorem State.land_bpcm (s : State) : s.land.bpcm = s.bpcm := rfl
@[simp] theorem State.land_bda (s : State) : s.land.bda = s.bda := rfl
@[simp] theorem State.land_bdam (s : State) : s.land.bdam = s.bdam := rfl
@[simp] theorem State.land_mem (s : State) : s.land.mem = s.mem := rfl
@[simp] theorem State.land_storedTo (s : State) : s.land.storedTo = s.storedTo := rfl
@[simp] theorem State.land_failed (s : State) : s.land.failed = s.failed := rfl
@[simp] theorem State.land_storeError (s : State) : s.land.storeError = s.storeError := rfl
@[simp] theorem State.land_lastpc (s : State) : s.land.lastpc = s.lastpc := rfl
@[simp] theorem State.land_entered (s : State) : s.land.entered = s.entered := rfl
@[simp] theorem State.land_resetHeld (s : State) : s.land.resetHeld = s.resetHeld := rfl
@[simp] theorem State.land_params (s : State) : s.land.params = s.params := rfl
@[simp] theorem State.land_env (s : State) : s.land.env = s.env := rfl
@[simp] theorem State.land_draws (s : State) : s.land.draws = s.draws := rfl

/-! ### State.advance -/

@[simp] theorem State.advance_gpr (s : State) : s.advance.gpr = s.gpr := rfl
@[simp] theorem State.advance_hi (s : State) : s.advance.hi = s.hi := rfl
@[simp] theorem State.advance_lo (s : State) : s.advance.lo = s.lo := rfl
@[simp] theorem State.advance_pc (s : State) : s.advance.pc = s.npc := rfl
@[simp] theorem State.advance_npc (s : State) : s.advance.npc = s.npc + 4 := rfl
@[simp] theorem State.advance_ds (s : State) : s.advance.ds = none := rfl
@[simp] theorem State.advance_ld (s : State) : s.advance.ld = s.ld := rfl
@[simp] theorem State.advance_sr (s : State) : s.advance.sr = s.sr := rfl
@[simp] theorem State.advance_cause (s : State) : s.advance.cause = s.cause := rfl
@[simp] theorem State.advance_epc (s : State) : s.advance.epc = s.epc := rfl
@[simp] theorem State.advance_badA (s : State) : s.advance.badA = s.badA := rfl
@[simp] theorem State.advance_tar (s : State) : s.advance.tar = s.tar := rfl
@[simp] theorem State.advance_dcic (s : State) : s.advance.dcic = s.dcic := rfl
@[simp] theorem State.advance_bpc (s : State) : s.advance.bpc = s.bpc := rfl
@[simp] theorem State.advance_bpcm (s : State) : s.advance.bpcm = s.bpcm := rfl
@[simp] theorem State.advance_bda (s : State) : s.advance.bda = s.bda := rfl
@[simp] theorem State.advance_bdam (s : State) : s.advance.bdam = s.bdam := rfl
@[simp] theorem State.advance_mem (s : State) : s.advance.mem = s.mem := rfl
@[simp] theorem State.advance_storedTo (s : State) : s.advance.storedTo = s.storedTo := rfl
@[simp] theorem State.advance_failed (s : State) : s.advance.failed = s.failed := rfl
@[simp] theorem State.advance_storeError (s : State) : s.advance.storeError = s.storeError := rfl
@[simp] theorem State.advance_lastpc (s : State) : s.advance.lastpc = s.lastpc := rfl
@[simp] theorem State.advance_entered (s : State) : s.advance.entered = s.entered := rfl
@[simp] theorem State.advance_resetHeld (s : State) : s.advance.resetHeld = s.resetHeld := rfl
@[simp] theorem State.advance_params (s : State) : s.advance.params = s.params := rfl
@[simp] theorem State.advance_env (s : State) : s.advance.env = s.env := rfl
@[simp] theorem State.advance_draws (s : State) : s.advance.draws = s.draws := rfl

/-! ### State.finish -/

@[simp] theorem State.finish_gpr (s : State) : s.finish.gpr = landed s.gpr s.ld := rfl
@[simp] theorem State.finish_hi (s : State) : s.finish.hi = s.hi := rfl
@[simp] theorem State.finish_lo (s : State) : s.finish.lo = s.lo := rfl
@[simp] theorem State.finish_pc (s : State) : s.finish.pc = s.npc := rfl
@[simp] theorem State.finish_npc (s : State) : s.finish.npc = s.npc + 4 := rfl
@[simp] theorem State.finish_ds (s : State) : s.finish.ds = none := rfl
@[simp] theorem State.finish_ld (s : State) : s.finish.ld = none := rfl
@[simp] theorem State.finish_sr (s : State) : s.finish.sr = s.sr := rfl
@[simp] theorem State.finish_cause (s : State) : s.finish.cause = s.cause := rfl
@[simp] theorem State.finish_epc (s : State) : s.finish.epc = s.epc := rfl
@[simp] theorem State.finish_badA (s : State) : s.finish.badA = s.badA := rfl
@[simp] theorem State.finish_tar (s : State) : s.finish.tar = s.tar := rfl
@[simp] theorem State.finish_dcic (s : State) : s.finish.dcic = s.dcic := rfl
@[simp] theorem State.finish_bpc (s : State) : s.finish.bpc = s.bpc := rfl
@[simp] theorem State.finish_bpcm (s : State) : s.finish.bpcm = s.bpcm := rfl
@[simp] theorem State.finish_bda (s : State) : s.finish.bda = s.bda := rfl
@[simp] theorem State.finish_bdam (s : State) : s.finish.bdam = s.bdam := rfl
@[simp] theorem State.finish_mem (s : State) : s.finish.mem = s.mem := rfl
@[simp] theorem State.finish_storedTo (s : State) : s.finish.storedTo = s.storedTo := rfl
@[simp] theorem State.finish_failed (s : State) : s.finish.failed = s.failed := rfl
@[simp] theorem State.finish_storeError (s : State) : s.finish.storeError = s.storeError := rfl
@[simp] theorem State.finish_lastpc (s : State) : s.finish.lastpc = s.lastpc := rfl
@[simp] theorem State.finish_entered (s : State) : s.finish.entered = s.entered := rfl
@[simp] theorem State.finish_resetHeld (s : State) : s.finish.resetHeld = s.resetHeld := rfl
@[simp] theorem State.finish_params (s : State) : s.finish.params = s.params := rfl
@[simp] theorem State.finish_env (s : State) : s.finish.env = s.env := rfl
@[simp] theorem State.finish_draws (s : State) : s.finish.draws = s.draws := rfl

/-! ### State.writeBack -/

@[simp] theorem State.writeBack_gpr (s : State) (i : RegIdx) (v : Word) : (s.writeBack i v).gpr = gprSet (landed s.gpr s.ld) i v := rfl
@[simp] theorem State.writeBack_hi (s : State) (i : RegIdx) (v : Word) : (s.writeBack i v).hi = s.hi := rfl
@[simp] theorem State.writeBack_lo (s : State) (i : RegIdx) (v : Word) : (s.writeBack i v).lo = s.lo := rfl
@[simp] theorem State.writeBack_pc (s : State) (i : RegIdx) (v : Word) : (s.writeBack i v).pc = s.npc := rfl
@[simp] theorem State.writeBack_npc (s : State) (i : RegIdx) (v : Word) : (s.writeBack i v).npc = s.npc + 4 := rfl
@[simp] theorem State.writeBack_ds (s : State) (i : RegIdx) (v : Word) : (s.writeBack i v).ds = none := rfl
@[simp] theorem State.writeBack_ld (s : State) (i : RegIdx) (v : Word) : (s.writeBack i v).ld = none := rfl
@[simp] theorem State.writeBack_sr (s : State) (i : RegIdx) (v : Word) : (s.writeBack i v).sr = s.sr := rfl
@[simp] theorem State.writeBack_cause (s : State) (i : RegIdx) (v : Word) : (s.writeBack i v).cause = s.cause := rfl
@[simp] theorem State.writeBack_epc (s : State) (i : RegIdx) (v : Word) : (s.writeBack i v).epc = s.epc := rfl
@[simp] theorem State.writeBack_badA (s : State) (i : RegIdx) (v : Word) : (s.writeBack i v).badA = s.badA := rfl
@[simp] theorem State.writeBack_tar (s : State) (i : RegIdx) (v : Word) : (s.writeBack i v).tar = s.tar := rfl
@[simp] theorem State.writeBack_dcic (s : State) (i : RegIdx) (v : Word) : (s.writeBack i v).dcic = s.dcic := rfl
@[simp] theorem State.writeBack_bpc (s : State) (i : RegIdx) (v : Word) : (s.writeBack i v).bpc = s.bpc := rfl
@[simp] theorem State.writeBack_bpcm (s : State) (i : RegIdx) (v : Word) : (s.writeBack i v).bpcm = s.bpcm := rfl
@[simp] theorem State.writeBack_bda (s : State) (i : RegIdx) (v : Word) : (s.writeBack i v).bda = s.bda := rfl
@[simp] theorem State.writeBack_bdam (s : State) (i : RegIdx) (v : Word) : (s.writeBack i v).bdam = s.bdam := rfl
@[simp] theorem State.writeBack_mem (s : State) (i : RegIdx) (v : Word) : (s.writeBack i v).mem = s.mem := rfl
@[simp] theorem State.writeBack_storedTo (s : State) (i : RegIdx) (v : Word) : (s.writeBack i v).storedTo = s.storedTo := rfl
@[simp] theorem State.writeBack_failed (s : State) (i : RegIdx) (v : Word) : (s.writeBack i v).failed = s.failed := rfl
@[simp] theorem State.writeBack_storeError (s : State) (i : RegIdx) (v : Word) : (s.writeBack i v).storeError = s.storeError := rfl
@[simp] theorem State.writeBack_lastpc (s : State) (i : RegIdx) (v : Word) : (s.writeBack i v).lastpc = s.lastpc := rfl
@[simp] theorem State.writeBack_entered (s : State) (i : RegIdx) (v : Word) : (s.writeBack i v).entered = s.entered := rfl
@[simp] theorem State.writeBack_resetHeld (s : State) (i : RegIdx) (v : Word) : (s.writeBack i v).resetHeld = s.resetHeld := rfl
@[simp] theorem State.writeBack_params (s : State) (i : RegIdx) (v : Word) : (s.writeBack i v).params = s.params := rfl
@[simp] theorem State.writeBack_env (s : State) (i : RegIdx) (v : Word) : (s.writeBack i v).env = s.env := rfl
@[simp] theorem State.writeBack_draws (s : State) (i : RegIdx) (v : Word) : (s.writeBack i v).draws = s.draws := rfl

/-! ### State.loadBack -/

@[simp] theorem State.loadBack_gpr (s : State) (i : RegIdx) (v : Word) : (s.loadBack i v).gpr = landed s.gpr s.ld := rfl
@[simp] theorem State.loadBack_hi (s : State) (i : RegIdx) (v : Word) : (s.loadBack i v).hi = s.hi := rfl
@[simp] theorem State.loadBack_lo (s : State) (i : RegIdx) (v : Word) : (s.loadBack i v).lo = s.lo := rfl
@[simp] theorem State.loadBack_pc (s : State) (i : RegIdx) (v : Word) : (s.loadBack i v).pc = s.npc := rfl
@[simp] theorem State.loadBack_npc (s : State) (i : RegIdx) (v : Word) : (s.loadBack i v).npc = s.npc + 4 := rfl
@[simp] theorem State.loadBack_ds (s : State) (i : RegIdx) (v : Word) : (s.loadBack i v).ds = none := rfl
@[simp] theorem State.loadBack_ld (s : State) (i : RegIdx) (v : Word) : (s.loadBack i v).ld = if i = 0 then none else some ⟨i, v⟩ := rfl
@[simp] theorem State.loadBack_sr (s : State) (i : RegIdx) (v : Word) : (s.loadBack i v).sr = s.sr := rfl
@[simp] theorem State.loadBack_cause (s : State) (i : RegIdx) (v : Word) : (s.loadBack i v).cause = s.cause := rfl
@[simp] theorem State.loadBack_epc (s : State) (i : RegIdx) (v : Word) : (s.loadBack i v).epc = s.epc := rfl
@[simp] theorem State.loadBack_badA (s : State) (i : RegIdx) (v : Word) : (s.loadBack i v).badA = s.badA := rfl
@[simp] theorem State.loadBack_tar (s : State) (i : RegIdx) (v : Word) : (s.loadBack i v).tar = s.tar := rfl
@[simp] theorem State.loadBack_dcic (s : State) (i : RegIdx) (v : Word) : (s.loadBack i v).dcic = s.dcic := rfl
@[simp] theorem State.loadBack_bpc (s : State) (i : RegIdx) (v : Word) : (s.loadBack i v).bpc = s.bpc := rfl
@[simp] theorem State.loadBack_bpcm (s : State) (i : RegIdx) (v : Word) : (s.loadBack i v).bpcm = s.bpcm := rfl
@[simp] theorem State.loadBack_bda (s : State) (i : RegIdx) (v : Word) : (s.loadBack i v).bda = s.bda := rfl
@[simp] theorem State.loadBack_bdam (s : State) (i : RegIdx) (v : Word) : (s.loadBack i v).bdam = s.bdam := rfl
@[simp] theorem State.loadBack_mem (s : State) (i : RegIdx) (v : Word) : (s.loadBack i v).mem = s.mem := rfl
@[simp] theorem State.loadBack_storedTo (s : State) (i : RegIdx) (v : Word) : (s.loadBack i v).storedTo = s.storedTo := rfl
@[simp] theorem State.loadBack_failed (s : State) (i : RegIdx) (v : Word) : (s.loadBack i v).failed = s.failed := rfl
@[simp] theorem State.loadBack_storeError (s : State) (i : RegIdx) (v : Word) : (s.loadBack i v).storeError = s.storeError := rfl
@[simp] theorem State.loadBack_lastpc (s : State) (i : RegIdx) (v : Word) : (s.loadBack i v).lastpc = s.lastpc := rfl
@[simp] theorem State.loadBack_entered (s : State) (i : RegIdx) (v : Word) : (s.loadBack i v).entered = s.entered := rfl
@[simp] theorem State.loadBack_resetHeld (s : State) (i : RegIdx) (v : Word) : (s.loadBack i v).resetHeld = s.resetHeld := rfl
@[simp] theorem State.loadBack_params (s : State) (i : RegIdx) (v : Word) : (s.loadBack i v).params = s.params := rfl
@[simp] theorem State.loadBack_env (s : State) (i : RegIdx) (v : Word) : (s.loadBack i v).env = s.env := rfl
@[simp] theorem State.loadBack_draws (s : State) (i : RegIdx) (v : Word) : (s.loadBack i v).draws = s.draws := rfl

/-! ### State.transfer -/

@[simp] theorem State.transfer_gpr (s : State) (b : Bool) (v : Word) : (s.transfer b v).gpr = landed s.gpr s.ld := rfl
@[simp] theorem State.transfer_hi (s : State) (b : Bool) (v : Word) : (s.transfer b v).hi = s.hi := rfl
@[simp] theorem State.transfer_lo (s : State) (b : Bool) (v : Word) : (s.transfer b v).lo = s.lo := rfl
@[simp] theorem State.transfer_pc (s : State) (b : Bool) (v : Word) : (s.transfer b v).pc = s.npc := rfl
@[simp] theorem State.transfer_npc (s : State) (b : Bool) (v : Word) : (s.transfer b v).npc = if b then v else s.npc + 4 := rfl
@[simp] theorem State.transfer_ds (s : State) (b : Bool) (v : Word) : (s.transfer b v).ds = some ⟨s.pc, b, v⟩ := rfl
@[simp] theorem State.transfer_ld (s : State) (b : Bool) (v : Word) : (s.transfer b v).ld = none := rfl
@[simp] theorem State.transfer_sr (s : State) (b : Bool) (v : Word) : (s.transfer b v).sr = s.sr := rfl
@[simp] theorem State.transfer_cause (s : State) (b : Bool) (v : Word) : (s.transfer b v).cause = s.cause := rfl
@[simp] theorem State.transfer_epc (s : State) (b : Bool) (v : Word) : (s.transfer b v).epc = s.epc := rfl
@[simp] theorem State.transfer_badA (s : State) (b : Bool) (v : Word) : (s.transfer b v).badA = s.badA := rfl
@[simp] theorem State.transfer_tar (s : State) (b : Bool) (v : Word) : (s.transfer b v).tar = s.tar := rfl
@[simp] theorem State.transfer_dcic (s : State) (b : Bool) (v : Word) : (s.transfer b v).dcic = s.dcic := rfl
@[simp] theorem State.transfer_bpc (s : State) (b : Bool) (v : Word) : (s.transfer b v).bpc = s.bpc := rfl
@[simp] theorem State.transfer_bpcm (s : State) (b : Bool) (v : Word) : (s.transfer b v).bpcm = s.bpcm := rfl
@[simp] theorem State.transfer_bda (s : State) (b : Bool) (v : Word) : (s.transfer b v).bda = s.bda := rfl
@[simp] theorem State.transfer_bdam (s : State) (b : Bool) (v : Word) : (s.transfer b v).bdam = s.bdam := rfl
@[simp] theorem State.transfer_mem (s : State) (b : Bool) (v : Word) : (s.transfer b v).mem = s.mem := rfl
@[simp] theorem State.transfer_storedTo (s : State) (b : Bool) (v : Word) : (s.transfer b v).storedTo = s.storedTo := rfl
@[simp] theorem State.transfer_failed (s : State) (b : Bool) (v : Word) : (s.transfer b v).failed = s.failed := rfl
@[simp] theorem State.transfer_storeError (s : State) (b : Bool) (v : Word) : (s.transfer b v).storeError = s.storeError := rfl
@[simp] theorem State.transfer_lastpc (s : State) (b : Bool) (v : Word) : (s.transfer b v).lastpc = s.lastpc := rfl
@[simp] theorem State.transfer_entered (s : State) (b : Bool) (v : Word) : (s.transfer b v).entered = s.entered := rfl
@[simp] theorem State.transfer_resetHeld (s : State) (b : Bool) (v : Word) : (s.transfer b v).resetHeld = s.resetHeld := rfl
@[simp] theorem State.transfer_params (s : State) (b : Bool) (v : Word) : (s.transfer b v).params = s.params := rfl
@[simp] theorem State.transfer_env (s : State) (b : Bool) (v : Word) : (s.transfer b v).env = s.env := rfl
@[simp] theorem State.transfer_draws (s : State) (b : Bool) (v : Word) : (s.transfer b v).draws = s.draws := rfl

/-! ### State.popStatus -/

@[simp] theorem State.popStatus_gpr (s : State) : s.popStatus.gpr = s.gpr := rfl
@[simp] theorem State.popStatus_hi (s : State) : s.popStatus.hi = s.hi := rfl
@[simp] theorem State.popStatus_lo (s : State) : s.popStatus.lo = s.lo := rfl
@[simp] theorem State.popStatus_pc (s : State) : s.popStatus.pc = s.pc := rfl
@[simp] theorem State.popStatus_npc (s : State) : s.popStatus.npc = s.npc := rfl
@[simp] theorem State.popStatus_ds (s : State) : s.popStatus.ds = s.ds := rfl
@[simp] theorem State.popStatus_ld (s : State) : s.popStatus.ld = s.ld := rfl
@[simp] theorem State.popStatus_sr (s : State) : s.popStatus.sr = s.sr.popped := rfl
@[simp] theorem State.popStatus_cause (s : State) : s.popStatus.cause = s.cause := rfl
@[simp] theorem State.popStatus_epc (s : State) : s.popStatus.epc = s.epc := rfl
@[simp] theorem State.popStatus_badA (s : State) : s.popStatus.badA = s.badA := rfl
@[simp] theorem State.popStatus_tar (s : State) : s.popStatus.tar = s.tar := rfl
@[simp] theorem State.popStatus_dcic (s : State) : s.popStatus.dcic = s.dcic := rfl
@[simp] theorem State.popStatus_bpc (s : State) : s.popStatus.bpc = s.bpc := rfl
@[simp] theorem State.popStatus_bpcm (s : State) : s.popStatus.bpcm = s.bpcm := rfl
@[simp] theorem State.popStatus_bda (s : State) : s.popStatus.bda = s.bda := rfl
@[simp] theorem State.popStatus_bdam (s : State) : s.popStatus.bdam = s.bdam := rfl
@[simp] theorem State.popStatus_mem (s : State) : s.popStatus.mem = s.mem := rfl
@[simp] theorem State.popStatus_storedTo (s : State) : s.popStatus.storedTo = s.storedTo := rfl
@[simp] theorem State.popStatus_failed (s : State) : s.popStatus.failed = s.failed := rfl
@[simp] theorem State.popStatus_storeError (s : State) : s.popStatus.storeError = s.storeError := rfl
@[simp] theorem State.popStatus_lastpc (s : State) : s.popStatus.lastpc = s.lastpc := rfl
@[simp] theorem State.popStatus_entered (s : State) : s.popStatus.entered = s.entered := rfl
@[simp] theorem State.popStatus_resetHeld (s : State) : s.popStatus.resetHeld = s.resetHeld := rfl
@[simp] theorem State.popStatus_params (s : State) : s.popStatus.params = s.params := rfl
@[simp] theorem State.popStatus_env (s : State) : s.popStatus.env = s.env := rfl
@[simp] theorem State.popStatus_draws (s : State) : s.popStatus.draws = s.draws := rfl

/-! ### State.noteParity -/

@[simp] theorem State.noteParity_gpr (s : State) (b : Bool) : (s.noteParity b).gpr = s.gpr := rfl
@[simp] theorem State.noteParity_hi (s : State) (b : Bool) : (s.noteParity b).hi = s.hi := rfl
@[simp] theorem State.noteParity_lo (s : State) (b : Bool) : (s.noteParity b).lo = s.lo := rfl
@[simp] theorem State.noteParity_pc (s : State) (b : Bool) : (s.noteParity b).pc = s.pc := rfl
@[simp] theorem State.noteParity_npc (s : State) (b : Bool) : (s.noteParity b).npc = s.npc := rfl
@[simp] theorem State.noteParity_ds (s : State) (b : Bool) : (s.noteParity b).ds = s.ds := rfl
@[simp] theorem State.noteParity_ld (s : State) (b : Bool) : (s.noteParity b).ld = s.ld := rfl
@[simp] theorem State.noteParity_sr (s : State) (b : Bool) : (s.noteParity b).sr = ({ s.sr with pe := s.sr.pe || b }) := rfl
@[simp] theorem State.noteParity_cause (s : State) (b : Bool) : (s.noteParity b).cause = s.cause := rfl
@[simp] theorem State.noteParity_epc (s : State) (b : Bool) : (s.noteParity b).epc = s.epc := rfl
@[simp] theorem State.noteParity_badA (s : State) (b : Bool) : (s.noteParity b).badA = s.badA := rfl
@[simp] theorem State.noteParity_tar (s : State) (b : Bool) : (s.noteParity b).tar = s.tar := rfl
@[simp] theorem State.noteParity_dcic (s : State) (b : Bool) : (s.noteParity b).dcic = s.dcic := rfl
@[simp] theorem State.noteParity_bpc (s : State) (b : Bool) : (s.noteParity b).bpc = s.bpc := rfl
@[simp] theorem State.noteParity_bpcm (s : State) (b : Bool) : (s.noteParity b).bpcm = s.bpcm := rfl
@[simp] theorem State.noteParity_bda (s : State) (b : Bool) : (s.noteParity b).bda = s.bda := rfl
@[simp] theorem State.noteParity_bdam (s : State) (b : Bool) : (s.noteParity b).bdam = s.bdam := rfl
@[simp] theorem State.noteParity_mem (s : State) (b : Bool) : (s.noteParity b).mem = s.mem := rfl
@[simp] theorem State.noteParity_storedTo (s : State) (b : Bool) : (s.noteParity b).storedTo = s.storedTo := rfl
@[simp] theorem State.noteParity_failed (s : State) (b : Bool) : (s.noteParity b).failed = s.failed := rfl
@[simp] theorem State.noteParity_storeError (s : State) (b : Bool) : (s.noteParity b).storeError = s.storeError := rfl
@[simp] theorem State.noteParity_lastpc (s : State) (b : Bool) : (s.noteParity b).lastpc = s.lastpc := rfl
@[simp] theorem State.noteParity_entered (s : State) (b : Bool) : (s.noteParity b).entered = s.entered := rfl
@[simp] theorem State.noteParity_resetHeld (s : State) (b : Bool) : (s.noteParity b).resetHeld = s.resetHeld := rfl
@[simp] theorem State.noteParity_params (s : State) (b : Bool) : (s.noteParity b).params = s.params := rfl
@[simp] theorem State.noteParity_env (s : State) (b : Bool) : (s.noteParity b).env = s.env := rfl
@[simp] theorem State.noteParity_draws (s : State) (b : Bool) : (s.noteParity b).draws = s.draws := rfl

/-! ### State.postDataDebug -/

@[simp] theorem State.postDataDebug_gpr (s : State) (v : Word) (b : Bool) : (s.postDataDebug v b).gpr = s.gpr := rfl
@[simp] theorem State.postDataDebug_hi (s : State) (v : Word) (b : Bool) : (s.postDataDebug v b).hi = s.hi := rfl
@[simp] theorem State.postDataDebug_lo (s : State) (v : Word) (b : Bool) : (s.postDataDebug v b).lo = s.lo := rfl
@[simp] theorem State.postDataDebug_pc (s : State) (v : Word) (b : Bool) : (s.postDataDebug v b).pc = s.pc := rfl
@[simp] theorem State.postDataDebug_npc (s : State) (v : Word) (b : Bool) : (s.postDataDebug v b).npc = s.npc := rfl
@[simp] theorem State.postDataDebug_ds (s : State) (v : Word) (b : Bool) : (s.postDataDebug v b).ds = s.ds := rfl
@[simp] theorem State.postDataDebug_ld (s : State) (v : Word) (b : Bool) : (s.postDataDebug v b).ld = s.ld := rfl
@[simp] theorem State.postDataDebug_sr (s : State) (v : Word) (b : Bool) : (s.postDataDebug v b).sr = s.sr := rfl
@[simp] theorem State.postDataDebug_cause (s : State) (v : Word) (b : Bool) : (s.postDataDebug v b).cause = s.cause := rfl
@[simp] theorem State.postDataDebug_epc (s : State) (v : Word) (b : Bool) : (s.postDataDebug v b).epc = s.epc := rfl
@[simp] theorem State.postDataDebug_badA (s : State) (v : Word) (b : Bool) : (s.postDataDebug v b).badA = s.badA := rfl
@[simp] theorem State.postDataDebug_tar (s : State) (v : Word) (b : Bool) : (s.postDataDebug v b).tar = s.tar := rfl
@[simp] theorem State.postDataDebug_bpc (s : State) (v : Word) (b : Bool) : (s.postDataDebug v b).bpc = s.bpc := rfl
@[simp] theorem State.postDataDebug_bpcm (s : State) (v : Word) (b : Bool) : (s.postDataDebug v b).bpcm = s.bpcm := rfl
@[simp] theorem State.postDataDebug_bda (s : State) (v : Word) (b : Bool) : (s.postDataDebug v b).bda = s.bda := rfl
@[simp] theorem State.postDataDebug_bdam (s : State) (v : Word) (b : Bool) : (s.postDataDebug v b).bdam = s.bdam := rfl
@[simp] theorem State.postDataDebug_mem (s : State) (v : Word) (b : Bool) : (s.postDataDebug v b).mem = s.mem := rfl
@[simp] theorem State.postDataDebug_storedTo (s : State) (v : Word) (b : Bool) : (s.postDataDebug v b).storedTo = s.storedTo := rfl
@[simp] theorem State.postDataDebug_failed (s : State) (v : Word) (b : Bool) : (s.postDataDebug v b).failed = s.failed := rfl
@[simp] theorem State.postDataDebug_storeError (s : State) (v : Word) (b : Bool) : (s.postDataDebug v b).storeError = s.storeError := rfl
@[simp] theorem State.postDataDebug_lastpc (s : State) (v : Word) (b : Bool) : (s.postDataDebug v b).lastpc = s.lastpc := rfl
@[simp] theorem State.postDataDebug_entered (s : State) (v : Word) (b : Bool) : (s.postDataDebug v b).entered = s.entered := rfl
@[simp] theorem State.postDataDebug_resetHeld (s : State) (v : Word) (b : Bool) : (s.postDataDebug v b).resetHeld = s.resetHeld := rfl
@[simp] theorem State.postDataDebug_params (s : State) (v : Word) (b : Bool) : (s.postDataDebug v b).params = s.params := rfl
@[simp] theorem State.postDataDebug_env (s : State) (v : Word) (b : Bool) : (s.postDataDebug v b).env = s.env := rfl
@[simp] theorem State.postDataDebug_draws (s : State) (v : Word) (b : Bool) : (s.postDataDebug v b).draws = s.draws := rfl

/-! ### State.store -/

@[simp] theorem State.store_gpr (s : State) (v : Word) (bs : List Byte) : (s.store v bs).gpr = s.gpr := rfl
@[simp] theorem State.store_hi (s : State) (v : Word) (bs : List Byte) : (s.store v bs).hi = s.hi := rfl
@[simp] theorem State.store_lo (s : State) (v : Word) (bs : List Byte) : (s.store v bs).lo = s.lo := rfl
@[simp] theorem State.store_pc (s : State) (v : Word) (bs : List Byte) : (s.store v bs).pc = s.pc := rfl
@[simp] theorem State.store_npc (s : State) (v : Word) (bs : List Byte) : (s.store v bs).npc = s.npc := rfl
@[simp] theorem State.store_ds (s : State) (v : Word) (bs : List Byte) : (s.store v bs).ds = s.ds := rfl
@[simp] theorem State.store_ld (s : State) (v : Word) (bs : List Byte) : (s.store v bs).ld = s.ld := rfl
@[simp] theorem State.store_sr (s : State) (v : Word) (bs : List Byte) : (s.store v bs).sr = s.sr := rfl
@[simp] theorem State.store_cause (s : State) (v : Word) (bs : List Byte) : (s.store v bs).cause = s.cause := rfl
@[simp] theorem State.store_epc (s : State) (v : Word) (bs : List Byte) : (s.store v bs).epc = s.epc := rfl
@[simp] theorem State.store_badA (s : State) (v : Word) (bs : List Byte) : (s.store v bs).badA = s.badA := rfl
@[simp] theorem State.store_tar (s : State) (v : Word) (bs : List Byte) : (s.store v bs).tar = s.tar := rfl
@[simp] theorem State.store_dcic (s : State) (v : Word) (bs : List Byte) : (s.store v bs).dcic = s.dcic := rfl
@[simp] theorem State.store_bpc (s : State) (v : Word) (bs : List Byte) : (s.store v bs).bpc = s.bpc := rfl
@[simp] theorem State.store_bpcm (s : State) (v : Word) (bs : List Byte) : (s.store v bs).bpcm = s.bpcm := rfl
@[simp] theorem State.store_bda (s : State) (v : Word) (bs : List Byte) : (s.store v bs).bda = s.bda := rfl
@[simp] theorem State.store_bdam (s : State) (v : Word) (bs : List Byte) : (s.store v bs).bdam = s.bdam := rfl
@[simp] theorem State.store_mem (s : State) (v : Word) (bs : List Byte) : (s.store v bs).mem = if s.dataBerr true v bs.length then s.mem else storeCells s.params s.mem v bs := rfl
@[simp] theorem State.store_storedTo (s : State) (v : Word) (bs : List Byte) : (s.store v bs).storedTo = noteCells s.params s.storedTo v bs.length := rfl
@[simp] theorem State.store_failed (s : State) (v : Word) (bs : List Byte) : (s.store v bs).failed = if s.dataBerr true v bs.length then noteCells s.params s.failed v bs.length else settledCells s.params s.failed v bs.length := rfl
@[simp] theorem State.store_storeError (s : State) (v : Word) (bs : List Byte) : (s.store v bs).storeError = (s.storeError || s.dataBerr true v bs.length) := rfl
@[simp] theorem State.store_lastpc (s : State) (v : Word) (bs : List Byte) : (s.store v bs).lastpc = s.lastpc := rfl
@[simp] theorem State.store_entered (s : State) (v : Word) (bs : List Byte) : (s.store v bs).entered = s.entered := rfl
@[simp] theorem State.store_resetHeld (s : State) (v : Word) (bs : List Byte) : (s.store v bs).resetHeld = s.resetHeld := rfl
@[simp] theorem State.store_params (s : State) (v : Word) (bs : List Byte) : (s.store v bs).params = s.params := rfl
@[simp] theorem State.store_env (s : State) (v : Word) (bs : List Byte) : (s.store v bs).env = s.env := rfl
@[simp] theorem State.store_draws (s : State) (v : Word) (bs : List Byte) : (s.store v bs).draws = s.draws := rfl

/-! ### State.skipped -/

@[simp] theorem State.skipped_gpr (s : State) (v : Word) : (s.skipped v).gpr = landed s.gpr s.ld := rfl
@[simp] theorem State.skipped_hi (s : State) (v : Word) : (s.skipped v).hi = s.hi := rfl
@[simp] theorem State.skipped_lo (s : State) (v : Word) : (s.skipped v).lo = s.lo := rfl
@[simp] theorem State.skipped_pc (s : State) (v : Word) : (s.skipped v).pc = s.npc := rfl
@[simp] theorem State.skipped_npc (s : State) (v : Word) : (s.skipped v).npc = v := rfl
@[simp] theorem State.skipped_ds (s : State) (v : Word) : (s.skipped v).ds = none := rfl
@[simp] theorem State.skipped_ld (s : State) (v : Word) : (s.skipped v).ld = none := rfl
@[simp] theorem State.skipped_sr (s : State) (v : Word) : (s.skipped v).sr = s.sr := rfl
@[simp] theorem State.skipped_cause (s : State) (v : Word) : (s.skipped v).cause = s.cause := rfl
@[simp] theorem State.skipped_epc (s : State) (v : Word) : (s.skipped v).epc = s.epc := rfl
@[simp] theorem State.skipped_badA (s : State) (v : Word) : (s.skipped v).badA = s.badA := rfl
@[simp] theorem State.skipped_tar (s : State) (v : Word) : (s.skipped v).tar = s.tar := rfl
@[simp] theorem State.skipped_dcic (s : State) (v : Word) : (s.skipped v).dcic = s.dcic := rfl
@[simp] theorem State.skipped_bpc (s : State) (v : Word) : (s.skipped v).bpc = s.bpc := rfl
@[simp] theorem State.skipped_bpcm (s : State) (v : Word) : (s.skipped v).bpcm = s.bpcm := rfl
@[simp] theorem State.skipped_bda (s : State) (v : Word) : (s.skipped v).bda = s.bda := rfl
@[simp] theorem State.skipped_bdam (s : State) (v : Word) : (s.skipped v).bdam = s.bdam := rfl
@[simp] theorem State.skipped_mem (s : State) (v : Word) : (s.skipped v).mem = s.mem := rfl
@[simp] theorem State.skipped_storedTo (s : State) (v : Word) : (s.skipped v).storedTo = s.storedTo := rfl
@[simp] theorem State.skipped_failed (s : State) (v : Word) : (s.skipped v).failed = s.failed := rfl
@[simp] theorem State.skipped_storeError (s : State) (v : Word) : (s.skipped v).storeError = s.storeError := rfl
@[simp] theorem State.skipped_lastpc (s : State) (v : Word) : (s.skipped v).lastpc = s.lastpc := rfl
@[simp] theorem State.skipped_entered (s : State) (v : Word) : (s.skipped v).entered = s.entered := rfl
@[simp] theorem State.skipped_resetHeld (s : State) (v : Word) : (s.skipped v).resetHeld = s.resetHeld := rfl
@[simp] theorem State.skipped_params (s : State) (v : Word) : (s.skipped v).params = s.params := rfl
@[simp] theorem State.skipped_env (s : State) (v : Word) : (s.skipped v).env = s.env := rfl
@[simp] theorem State.skipped_draws (s : State) (v : Word) : (s.skipped v).draws = s.draws := rfl

/-! ### State.enterException -/

@[simp] theorem State.enterException_gpr (s : State) (e : Exc) (b : Bool) : (s.enterException e b).gpr = landed s.gpr s.ld := rfl
@[simp] theorem State.enterException_hi (s : State) (e : Exc) (b : Bool) : (s.enterException e b).hi = if b then Config.drawHI s.draws else s.hi := rfl
@[simp] theorem State.enterException_lo (s : State) (e : Exc) (b : Bool) : (s.enterException e b).lo = if b then Config.drawLO s.draws else s.lo := rfl
@[simp] theorem State.enterException_pc (s : State) (e : Exc) (b : Bool) : (s.enterException e b).pc = e.vector s.sr.bev := rfl
@[simp] theorem State.enterException_npc (s : State) (e : Exc) (b : Bool) : (s.enterException e b).npc = e.vector s.sr.bev + 4 := rfl
@[simp] theorem State.enterException_ds (s : State) (e : Exc) (b : Bool) : (s.enterException e b).ds = none := rfl
@[simp] theorem State.enterException_ld (s : State) (e : Exc) (b : Bool) : (s.enterException e b).ld = none := rfl
@[simp] theorem State.enterException_sr (s : State) (e : Exc) (b : Bool) : (s.enterException e b).sr = s.sr.pushed := rfl
@[simp] theorem State.enterException_epc (s : State) (e : Exc) (b : Bool) : (s.enterException e b).epc = restartAddress s.pc s.ds := rfl
@[simp] theorem State.enterException_badA (s : State) (e : Exc) (b : Bool) : (s.enterException e b).badA = e.badAddress s.badA := rfl
@[simp] theorem State.enterException_tar (s : State) (e : Exc) (b : Bool) : (s.enterException e b).tar = branchTargetOf (Config.drawTAR s.draws) s.ds := rfl
@[simp] theorem State.enterException_dcic (s : State) (e : Exc) (b : Bool) : (s.enterException e b).dcic = s.dcic := rfl
@[simp] theorem State.enterException_bpc (s : State) (e : Exc) (b : Bool) : (s.enterException e b).bpc = s.bpc := rfl
@[simp] theorem State.enterException_bpcm (s : State) (e : Exc) (b : Bool) : (s.enterException e b).bpcm = s.bpcm := rfl
@[simp] theorem State.enterException_bda (s : State) (e : Exc) (b : Bool) : (s.enterException e b).bda = s.bda := rfl
@[simp] theorem State.enterException_bdam (s : State) (e : Exc) (b : Bool) : (s.enterException e b).bdam = s.bdam := rfl
@[simp] theorem State.enterException_mem (s : State) (e : Exc) (b : Bool) : (s.enterException e b).mem = s.mem := rfl
@[simp] theorem State.enterException_storedTo (s : State) (e : Exc) (b : Bool) : (s.enterException e b).storedTo = s.storedTo := rfl
@[simp] theorem State.enterException_failed (s : State) (e : Exc) (b : Bool) : (s.enterException e b).failed = s.failed := rfl
@[simp] theorem State.enterException_storeError (s : State) (e : Exc) (b : Bool) : (s.enterException e b).storeError = s.storeError := rfl
@[simp] theorem State.enterException_lastpc (s : State) (e : Exc) (b : Bool) : (s.enterException e b).lastpc = s.lastpc := rfl
@[simp] theorem State.enterException_entered (s : State) (e : Exc) (b : Bool) : (s.enterException e b).entered = true := rfl
@[simp] theorem State.enterException_resetHeld (s : State) (e : Exc) (b : Bool) : (s.enterException e b).resetHeld = s.resetHeld := rfl
@[simp] theorem State.enterException_params (s : State) (e : Exc) (b : Bool) : (s.enterException e b).params = s.params := rfl
@[simp] theorem State.enterException_env (s : State) (e : Exc) (b : Bool) : (s.enterException e b).env = s.env := rfl
@[simp] theorem State.enterException_draws (s : State) (e : Exc) (b : Bool) : (s.enterException e b).draws = s.draws := rfl

/-! ### State.atFetch -/

@[simp] theorem State.atFetch_gpr (s : State) : s.atFetch.gpr = s.gpr := rfl
@[simp] theorem State.atFetch_hi (s : State) : s.atFetch.hi = s.hi := rfl
@[simp] theorem State.atFetch_lo (s : State) : s.atFetch.lo = s.lo := rfl
@[simp] theorem State.atFetch_pc (s : State) : s.atFetch.pc = s.pc := rfl
@[simp] theorem State.atFetch_npc (s : State) : s.atFetch.npc = s.npc := rfl
@[simp] theorem State.atFetch_ds (s : State) : s.atFetch.ds = s.ds := rfl
@[simp] theorem State.atFetch_ld (s : State) : s.atFetch.ld = s.ld := rfl
@[simp] theorem State.atFetch_sr (s : State) : s.atFetch.sr = s.sr := rfl
@[simp] theorem State.atFetch_cause (s : State) : s.atFetch.cause = s.cause := rfl
@[simp] theorem State.atFetch_epc (s : State) : s.atFetch.epc = s.epc := rfl
@[simp] theorem State.atFetch_badA (s : State) : s.atFetch.badA = s.badA := rfl
@[simp] theorem State.atFetch_tar (s : State) : s.atFetch.tar = s.tar := rfl
@[simp] theorem State.atFetch_bpc (s : State) : s.atFetch.bpc = s.bpc := rfl
@[simp] theorem State.atFetch_bpcm (s : State) : s.atFetch.bpcm = s.bpcm := rfl
@[simp] theorem State.atFetch_bda (s : State) : s.atFetch.bda = s.bda := rfl
@[simp] theorem State.atFetch_bdam (s : State) : s.atFetch.bdam = s.bdam := rfl
@[simp] theorem State.atFetch_mem (s : State) : s.atFetch.mem = s.mem := rfl
@[simp] theorem State.atFetch_storedTo (s : State) : s.atFetch.storedTo = s.storedTo := rfl
@[simp] theorem State.atFetch_failed (s : State) : s.atFetch.failed = s.failed := rfl
@[simp] theorem State.atFetch_storeError (s : State) : s.atFetch.storeError = s.storeError := rfl
@[simp] theorem State.atFetch_lastpc (s : State) : s.atFetch.lastpc = s.lastpc := rfl
@[simp] theorem State.atFetch_entered (s : State) : s.atFetch.entered = false := rfl
@[simp] theorem State.atFetch_resetHeld (s : State) : s.atFetch.resetHeld = s.resetHeld := rfl
@[simp] theorem State.atFetch_params (s : State) : s.atFetch.params = s.params := rfl
@[simp] theorem State.atFetch_env (s : State) : s.atFetch.env = s.env := rfl
@[simp] theorem State.atFetch_draws (s : State) : s.atFetch.draws = s.draws := rfl

/-! ### State.tick -/

@[simp] theorem State.tick_gpr (s : State) : s.tick.gpr = s.gpr := rfl
@[simp] theorem State.tick_hi (s : State) : s.tick.hi = s.hi := rfl
@[simp] theorem State.tick_lo (s : State) : s.tick.lo = s.lo := rfl
@[simp] theorem State.tick_pc (s : State) : s.tick.pc = s.pc := rfl
@[simp] theorem State.tick_npc (s : State) : s.tick.npc = s.npc := rfl
@[simp] theorem State.tick_ds (s : State) : s.tick.ds = s.ds := rfl
@[simp] theorem State.tick_ld (s : State) : s.tick.ld = s.ld := rfl
@[simp] theorem State.tick_sr (s : State) : s.tick.sr = s.sr := rfl
@[simp] theorem State.tick_cause (s : State) : s.tick.cause = s.cause := rfl
@[simp] theorem State.tick_epc (s : State) : s.tick.epc = s.epc := rfl
@[simp] theorem State.tick_badA (s : State) : s.tick.badA = s.badA := rfl
@[simp] theorem State.tick_tar (s : State) : s.tick.tar = s.tar := rfl
@[simp] theorem State.tick_dcic (s : State) : s.tick.dcic = s.dcic := rfl
@[simp] theorem State.tick_bpc (s : State) : s.tick.bpc = s.bpc := rfl
@[simp] theorem State.tick_bpcm (s : State) : s.tick.bpcm = s.bpcm := rfl
@[simp] theorem State.tick_bda (s : State) : s.tick.bda = s.bda := rfl
@[simp] theorem State.tick_bdam (s : State) : s.tick.bdam = s.bdam := rfl
@[simp] theorem State.tick_mem (s : State) : s.tick.mem = s.mem := rfl
@[simp] theorem State.tick_storedTo (s : State) : s.tick.storedTo = s.storedTo := rfl
@[simp] theorem State.tick_failed (s : State) : s.tick.failed = s.failed := rfl
@[simp] theorem State.tick_storeError (s : State) : s.tick.storeError = s.storeError := rfl
@[simp] theorem State.tick_lastpc (s : State) : s.tick.lastpc = s.lastpc := rfl
@[simp] theorem State.tick_entered (s : State) : s.tick.entered = s.entered := rfl
@[simp] theorem State.tick_resetHeld (s : State) : s.tick.resetHeld = s.resetHeld := rfl
@[simp] theorem State.tick_params (s : State) : s.tick.params = s.params := rfl
@[simp] theorem State.tick_env (s : State) : s.tick.env = s.env.tail := rfl
@[simp] theorem State.tick_draws (s : State) : s.tick.draws = s.draws + 1 := rfl

/-! ### State.endStep -/

@[simp] theorem State.endStep_gpr (s : State) (v : Word) : (s.endStep v).gpr = s.gpr := rfl
@[simp] theorem State.endStep_hi (s : State) (v : Word) : (s.endStep v).hi = s.hi := rfl
@[simp] theorem State.endStep_lo (s : State) (v : Word) : (s.endStep v).lo = s.lo := rfl
@[simp] theorem State.endStep_pc (s : State) (v : Word) : (s.endStep v).pc = s.pc := rfl
@[simp] theorem State.endStep_npc (s : State) (v : Word) : (s.endStep v).npc = s.npc := rfl
@[simp] theorem State.endStep_ds (s : State) (v : Word) : (s.endStep v).ds = s.ds := rfl
@[simp] theorem State.endStep_ld (s : State) (v : Word) : (s.endStep v).ld = s.ld := rfl
@[simp] theorem State.endStep_sr (s : State) (v : Word) : (s.endStep v).sr = s.sr := rfl
@[simp] theorem State.endStep_cause (s : State) (v : Word) : (s.endStep v).cause = s.cause := rfl
@[simp] theorem State.endStep_epc (s : State) (v : Word) : (s.endStep v).epc = s.epc := rfl
@[simp] theorem State.endStep_badA (s : State) (v : Word) : (s.endStep v).badA = s.badA := rfl
@[simp] theorem State.endStep_tar (s : State) (v : Word) : (s.endStep v).tar = s.tar := rfl
@[simp] theorem State.endStep_dcic (s : State) (v : Word) : (s.endStep v).dcic = s.dcic := rfl
@[simp] theorem State.endStep_bpc (s : State) (v : Word) : (s.endStep v).bpc = s.bpc := rfl
@[simp] theorem State.endStep_bpcm (s : State) (v : Word) : (s.endStep v).bpcm = s.bpcm := rfl
@[simp] theorem State.endStep_bda (s : State) (v : Word) : (s.endStep v).bda = s.bda := rfl
@[simp] theorem State.endStep_bdam (s : State) (v : Word) : (s.endStep v).bdam = s.bdam := rfl
@[simp] theorem State.endStep_mem (s : State) (v : Word) : (s.endStep v).mem = s.mem := rfl
@[simp] theorem State.endStep_storedTo (s : State) (v : Word) : (s.endStep v).storedTo = s.storedTo := rfl
@[simp] theorem State.endStep_failed (s : State) (v : Word) : (s.endStep v).failed = s.failed := rfl
@[simp] theorem State.endStep_storeError (s : State) (v : Word) : (s.endStep v).storeError = s.storeError := rfl
@[simp] theorem State.endStep_lastpc (s : State) (v : Word) : (s.endStep v).lastpc = some v := rfl
@[simp] theorem State.endStep_entered (s : State) (v : Word) : (s.endStep v).entered = s.entered := rfl
@[simp] theorem State.endStep_resetHeld (s : State) (v : Word) : (s.endStep v).resetHeld = s.resetHeld := rfl
@[simp] theorem State.endStep_params (s : State) (v : Word) : (s.endStep v).params = s.params := rfl
@[simp] theorem State.endStep_env (s : State) (v : Word) : (s.endStep v).env = s.env.tail := rfl
@[simp] theorem State.endStep_draws (s : State) (v : Word) : (s.endStep v).draws = s.draws + 1 := rfl

/-! ### The fields of Cause after an exception entry, and the inputs, which no update of a step changes -/

@[simp] theorem State.enterException_bd (s : State) (e : Exc) (b : Bool) :
    (s.enterException e b).cause.bd = s.ds.isSome := rfl
@[simp] theorem State.enterException_bt (s : State) (e : Exc) (b : Bool) :
    (s.enterException e b).cause.bt = branchTaken (Config.drawBT s.draws) s.ds := rfl
@[simp] theorem State.enterException_ce (s : State) (e : Exc) (b : Bool) :
    (s.enterException e b).cause.ce = e.ce (Config.drawCE s.draws) := rfl
@[simp] theorem State.enterException_excCode (s : State) (e : Exc) (b : Bool) :
    (s.enterException e b).cause.excCode = e.code s.params.excCode := rfl
@[simp] theorem State.enterException_sw (s : State) (e : Exc) (b : Bool) :
    (s.enterException e b).cause.sw = s.cause.sw := rfl
@[simp] theorem State.postDataDebug_now (s : State) (v : Word) (b : Bool) : (s.postDataDebug v b).now = s.now := rfl
@[simp] theorem State.noteParity_now (s : State) (b : Bool) : (s.noteParity b).now = s.now := rfl
@[simp] theorem State.atFetch_now (s : State) : s.atFetch.now = s.now := rfl

/-! ### MTC0: a write of a CP0 register changes no other part of the state -/

@[simp] theorem State.cp0Write_gpr (s : State) (n : RegIdx) (v : Word) : (s.cp0Write n v).gpr = s.gpr := by
  unfold State.cp0Write; split <;> rfl
@[simp] theorem State.cp0Write_hi (s : State) (n : RegIdx) (v : Word) : (s.cp0Write n v).hi = s.hi := by
  unfold State.cp0Write; split <;> rfl
@[simp] theorem State.cp0Write_lo (s : State) (n : RegIdx) (v : Word) : (s.cp0Write n v).lo = s.lo := by
  unfold State.cp0Write; split <;> rfl
@[simp] theorem State.cp0Write_pc (s : State) (n : RegIdx) (v : Word) : (s.cp0Write n v).pc = s.pc := by
  unfold State.cp0Write; split <;> rfl
@[simp] theorem State.cp0Write_npc (s : State) (n : RegIdx) (v : Word) : (s.cp0Write n v).npc = s.npc := by
  unfold State.cp0Write; split <;> rfl
@[simp] theorem State.cp0Write_ds (s : State) (n : RegIdx) (v : Word) : (s.cp0Write n v).ds = s.ds := by
  unfold State.cp0Write; split <;> rfl
@[simp] theorem State.cp0Write_ld (s : State) (n : RegIdx) (v : Word) : (s.cp0Write n v).ld = s.ld := by
  unfold State.cp0Write; split <;> rfl
@[simp] theorem State.cp0Write_badA (s : State) (n : RegIdx) (v : Word) : (s.cp0Write n v).badA = s.badA := by
  unfold State.cp0Write; split <;> rfl
@[simp] theorem State.cp0Write_tar (s : State) (n : RegIdx) (v : Word) : (s.cp0Write n v).tar = s.tar := by
  unfold State.cp0Write; split <;> rfl
@[simp] theorem State.cp0Write_mem (s : State) (n : RegIdx) (v : Word) : (s.cp0Write n v).mem = s.mem := by
  unfold State.cp0Write; split <;> rfl
@[simp] theorem State.cp0Write_storedTo (s : State) (n : RegIdx) (v : Word) : (s.cp0Write n v).storedTo = s.storedTo := by
  unfold State.cp0Write; split <;> rfl
@[simp] theorem State.cp0Write_failed (s : State) (n : RegIdx) (v : Word) : (s.cp0Write n v).failed = s.failed := by
  unfold State.cp0Write; split <;> rfl
@[simp] theorem State.cp0Write_storeError (s : State) (n : RegIdx) (v : Word) : (s.cp0Write n v).storeError = s.storeError := by
  unfold State.cp0Write; split <;> rfl
@[simp] theorem State.cp0Write_lastpc (s : State) (n : RegIdx) (v : Word) : (s.cp0Write n v).lastpc = s.lastpc := by
  unfold State.cp0Write; split <;> rfl
@[simp] theorem State.cp0Write_entered (s : State) (n : RegIdx) (v : Word) : (s.cp0Write n v).entered = s.entered := by
  unfold State.cp0Write; split <;> rfl
@[simp] theorem State.cp0Write_resetHeld (s : State) (n : RegIdx) (v : Word) : (s.cp0Write n v).resetHeld = s.resetHeld := by
  unfold State.cp0Write; split <;> rfl
@[simp] theorem State.cp0Write_params (s : State) (n : RegIdx) (v : Word) : (s.cp0Write n v).params = s.params := by
  unfold State.cp0Write; split <;> rfl
@[simp] theorem State.cp0Write_env (s : State) (n : RegIdx) (v : Word) : (s.cp0Write n v).env = s.env := by
  unfold State.cp0Write; split <;> rfl
@[simp] theorem State.cp0Write_draws (s : State) (n : RegIdx) (v : Word) : (s.cp0Write n v).draws = s.draws := by
  unfold State.cp0Write; split <;> rfl

end Sys2Proof.Machine
end

