-- ==== Sys2Proof/Laws/Ops.lean ====
section
/-! SUPPORT. For each shared operation of Machine/Ops.lean, once, everything it does. -/

namespace Sys2Proof.Machine

/-! ### Registers -/

theorem gprSet_get (g : Vector Word 32) (r i : RegIdx) (v : Word) (hi : i ≠ 0) :
    (gprSet g r v)[i.toNat]'i.isLt = if i = r then v else g[i.toNat]'i.isLt := by
  unfold gprSet
  split
  · next h =>
    have : i ≠ r := fun e => hi (e.trans h)
    simp [this]
  · rw [Vector.getElem_set]
    by_cases h : i = r
    · subst h; simp
    · have : ¬ r.toNat = i.toNat := fun e => h (BitVec.eq_of_toNat_eq e.symm)
      simp [h, this]

theorem gprSet_zero (g : Vector Word 32) (r : RegIdx) (v : Word) : (gprSet g r v)[0] = g[0] := by
  unfold gprSet
  split
  · rfl
  · next h =>
    have : ¬ r.toNat = 0 := fun e => h (BitVec.eq_of_toNat_eq e)
    simp [this]

theorem landed_zero (g : Vector Word 32) (ld : Option PendingLoad) : (landed g ld)[0] = g[0] := by
  cases ld with
  | none => rfl
  | some p => exact gprSet_zero g p.reg p.value

theorem State.x_zero (s : State) : s.x 0 = 0 := rfl

theorem State.settled_zero (s : State) : s.settled 0 = 0 := by
  unfold State.settled
  cases s.ld <;> rfl

/-- The register file after the pending load has landed reads as `settled` says. -/
theorem landed_get (s : State) (i : RegIdx) (hi : i ≠ 0) : (landed s.gpr s.ld)[i.toNat]'i.isLt = s.settled i := by
  unfold State.settled State.x
  cases s.ld with
  | none => show _ = if i = 0 then _ else _; rw [if_neg hi]; rfl
  | some p =>
    simp only [landed, hi, if_false]
    rw [gprSet_get _ _ _ _ hi]
    by_cases h : i = p.reg
    · simp [h]
    · have : ¬ p.reg = i := fun e => h e.symm
      simp [h, this]

/-- A state whose register file is the landed one keeps every register. -/
theorem regsKept_of_gpr {s t : State} (h : t.gpr = landed s.gpr s.ld) : RegsKept s t := by
  intro i
  by_cases hi : i = 0
  · subst hi; rw [State.settled_zero]; rfl
  · rw [State.x, if_neg hi]; simp only [h]; exact landed_get s i hi

/-- A state whose register file is the landed one with one write has that register written. -/
theorem regWritten_of_gpr {s t : State} {rd : RegIdx} {v : Word} (h : t.gpr = gprSet (landed s.gpr s.ld) rd v) :
    RegWritten s t rd v := by
  intro i
  by_cases hi : i = 0
  · subst hi; rfl
  · rw [State.x, if_neg hi, if_neg hi]; simp only [h]; rw [gprSet_get _ _ _ _ hi, landed_get s i hi]

/-! ### What an operation leaves -/

theorem sameHiLo_refl (s : State) : SameHiLo s s := ⟨rfl, rfl⟩
theorem sameBreakpoints_refl (s : State) : SameBreakpoints s s := ⟨rfl, rfl, rfl, rfl⟩
theorem sameSaved_refl (s : State) : SameSaved s s := ⟨rfl, rfl, rfl, rfl⟩
theorem sameCp0_refl (s : State) : SameCp0 s s := ⟨rfl, rfl, sameSaved_refl s, sameBreakpoints_refl s⟩
theorem sameMemory_refl (s : State) : SameMemory s s := ⟨fun _ => rfl, rfl, rfl, rfl⟩
theorem sameOutside_refl (s : State) : SameOutside s s := ⟨rfl, rfl, rfl, rfl, rfl⟩

/-- A register instruction writes its register and nothing else. -/
theorem writeBack_spec (s : State) (rd : RegIdx) (v : Word) : WroteRegister s (s.writeBack rd v) rd v where
  regs := regWritten_of_gpr rfl
  ld := rfl
  advanced := ⟨rfl, rfl, rfl⟩
  hiLo := ⟨rfl, rfl⟩
  cp0 := ⟨rfl, rfl, ⟨rfl, rfl, rfl, rfl⟩, ⟨rfl, rfl, rfl, rfl⟩⟩
  memory := ⟨fun _ => rfl, rfl, rfl, rfl⟩
  outside := ⟨rfl, rfl, rfl, rfl, rfl⟩
  entered := rfl

/-- A jump or branch without link. -/
theorem transfer_spec (s : State) (taken : Bool) (target : Word) :
    Branched s (s.transfer taken target) taken target where
  regs := regsKept_of_gpr rfl
  ld := rfl
  transferred := ⟨rfl, rfl, rfl⟩
  hiLo := ⟨rfl, rfl⟩
  cp0 := ⟨rfl, rfl, ⟨rfl, rfl, rfl, rfl⟩, ⟨rfl, rfl, rfl, rfl⟩⟩
  memory := ⟨fun _ => rfl, rfl, rfl, rfl⟩
  outside := ⟨rfl, rfl, rfl, rfl, rfl⟩
  entered := rfl

/-- A jump or branch with link. -/
theorem transferLink_spec (s : State) (rd : RegIdx) (taken : Bool) (target : Word) :
    Linked s ((s.transfer taken target).setGpr rd s.linkValue) rd taken target where
  regs := regWritten_of_gpr rfl
  ld := rfl
  transferred := ⟨rfl, rfl, rfl⟩
  hiLo := ⟨rfl, rfl⟩
  cp0 := ⟨rfl, rfl, ⟨rfl, rfl, rfl, rfl⟩, ⟨rfl, rfl, rfl, rfl⟩⟩
  memory := ⟨fun _ => rfl, rfl, rfl, rfl⟩
  outside := ⟨rfl, rfl, rfl, rfl, rfl⟩
  entered := rfl

/-- An instruction that writes HI and LO. -/
theorem setHiLo_spec (s : State) (hi lo : Word) : WroteHiLo s (s.setHiLo hi lo).finish hi lo where
  regs := regsKept_of_gpr rfl
  ld := rfl
  advanced := ⟨rfl, rfl, rfl⟩
  hi := rfl
  lo := rfl
  cp0 := ⟨rfl, rfl, ⟨rfl, rfl, rfl, rfl⟩, ⟨rfl, rfl, rfl, rfl⟩⟩
  memory := ⟨fun _ => rfl, rfl, rfl, rfl⟩
  outside := ⟨rfl, rfl, rfl, rfl, rfl⟩
  entered := rfl

/-- The status bits that the data-address condition leaves. -/
theorem postDataDebug_posted (s : State) (va : Word) (write : Bool) : DataPosted s (s.postDataDebug va write) va write := by
  unfold DataPosted State.postDataDebug
  by_cases h : s.daHit va write = true
  · simp [h]
  · simp [Bool.not_eq_true _ ▸ h]

/-- A load that completes. -/
theorem loadBack_spec (s : State) (va : Word) (rt : RegIdx) (v : Word) :
    Loaded s (((s.postDataDebug va false).noteParity s.now.parityData).loadBack rt v) va rt v where
  regs := regsKept_of_gpr rfl
  ld := rfl
  advanced := ⟨rfl, rfl, rfl⟩
  hiLo := ⟨rfl, rfl⟩
  sr := rfl
  dcic := postDataDebug_posted s va false
  saved := ⟨rfl, rfl, rfl, rfl⟩
  breakpoints := ⟨rfl, rfl, rfl, rfl⟩
  memory := ⟨fun _ => rfl, rfl, rfl, rfl⟩
  outside := ⟨rfl, rfl, rfl, rfl, rfl⟩
  entered := rfl

/-! ### Bus errors -/

theorem platformBerr_iff (s : State) (write : Bool) (first : Word) (n : Nat) :
    s.platformBerr write first n = true ↔
      ∃ j < n, (if write then (s.regionOf (first + BitVec.ofNat 32 j)).berrWrite
        else (s.regionOf (first + BitVec.ofNat 32 j)).berrRead) = true := by
  simp [State.platformBerr, regionBerr]

theorem dataBerr_iff (s : State) (write : Bool) (first : Word) (n : Nat) :
    s.dataBerr write first n = true ↔ s.BusError write first n := by
  simp only [State.dataBerr, Bool.or_eq_true, platformBerr_iff, State.BusError]

theorem dataBerr_false {s : State} {write : Bool} {first : Word} {n : Nat} (h : ¬s.BusError write first n) :
    s.dataBerr write first n = false := by
  rw [← Bool.not_eq_true, dataBerr_iff]; exact h

/-- A store that completes: everything but what the stored bytes hold. -/
theorem store_spec (s : State) (va first : Word) (bs : List Byte) :
    Stored s (((s.postDataDebug va true).store first bs).finish) va first bs.length where
  regs := regsKept_of_gpr rfl
  ld := rfl
  advanced := ⟨rfl, rfl, rfl⟩
  hiLo := ⟨rfl, rfl⟩
  sr := rfl
  dcic := postDataDebug_posted s va true
  saved := ⟨rfl, rfl, rfl, rfl⟩
  breakpoints := ⟨rfl, rfl, rfl, rfl⟩
  bytes := fun a h => by
    show Memory.read (if _ then s.mem else _) a = _
    split
    · rfl
    · exact read_storeCells_outside _ _ _ _ _ h
  kept := fun a h => by
    show Memory.read (if _ then s.mem else _) a = _
    split
    · rfl
    · exact read_storeCells_kept _ _ _ _ _ h
  record := fun a => mem_noteCells s.params s.storedTo first bs.length a
  failed := fun h a => by
    rw [← dataBerr_iff] at h
    show a ∈ (if s.dataBerr true first bs.length = true then _ else _) ↔ _
    rw [if_pos h]; exact mem_noteCells s.params s.failed first bs.length a
  settled := fun h a => by
    rw [← dataBerr_iff] at h
    show a ∈ (if s.dataBerr true first bs.length = true then _ else _) ↔ _
    rw [if_neg h]; exact mem_settledCells s.params s.failed first bs.length a
  storeError := by rw [← dataBerr_iff, ← Bool.or_eq_true]; rfl
  outside := ⟨rfl, rfl, rfl, rfl, rfl⟩
  entered := rfl

/-- The bytes of a store without bus error to writable memory, where no two of them share a cell, in memory. -/
theorem store_bytes (s : State) (va first : Word) (bs : List Byte) (hb : ¬s.BusError true first bs.length)
    (hr : s.inRam first bs.length) (j : Nat) (hj : j < bs.length)
    (h : ∀ k < bs.length, j < k →
      s.cellOf (first + BitVec.ofNat 32 j) ≠ s.cellOf (first + BitVec.ofNat 32 k)) :
    (((s.postDataDebug va true).store first bs).finish).mem.read (s.cellOf (first + BitVec.ofNat 32 j)) = bs[j] := by
  rw [← dataBerr_iff] at hb
  show Memory.read (if s.dataBerr true first bs.length = true then _ else _) _ = _
  rw [if_neg hb]
  exact read_storeCells_at _ _ _ _ _ hj (hr j hj) h

/-- The same as a load or a fetch reads them afterwards. -/
theorem store_readByte (s : State) (va first : Word) (bs : List Byte) (hb : ¬s.BusError true first bs.length)
    (hr : s.inRam first bs.length) (kind : Access) (j : Nat) (hj : j < bs.length)
    (h : ∀ k < bs.length, j < k →
      s.cellOf (first + BitVec.ofNat 32 j) ≠ s.cellOf (first + BitVec.ofNat 32 k)) :
    (((s.postDataDebug va true).store first bs).finish).readByte kind (first + BitVec.ofNat 32 j) = bs[j] := by
  rw [State.readByte_memory]
  · exact store_bytes s va first bs hb hr j hj h
  · show (s.regionOf _).place ≠ .device
    rw [hr j hj]; decide
  · rw [(store_spec s va first bs).settled hb]
    exact fun e => e.2 ⟨hr j hj, j, hj, rfl⟩

/-! ### Exceptions -/

/-- Exception entry does what R250 to R253 say. -/
theorem enterException_spec (s : State) (e : Exc) (b : Bool) : Entered s (s.enterException e b) e b where
  regs := regsKept_of_gpr rfl
  ld := rfl
  epc := by cases h : s.ds <;> simp [h, restartAddress]
  bd := rfl
  bt := fun d h => by simp [h, branchTaken]
  tar := fun d h ht => by simp [h, branchTargetOf, ht]
  code := rfl
  ce := fun z h => by subst h; rfl
  sw := rfl
  badA := fun a h => by rcases h with rfl | rfl <;> rfl
  badAKept := fun h => by
    cases e with
    | adEL a => exact absurd rfl (h a).1
    | adES a => exact absurd rfl (h a).2
    | _ => rfl
  sr := rfl
  pc := by cases e <;> rfl
  npc := rfl
  ds := rfl
  hiLo := fun h => by subst h; exact ⟨rfl, rfl⟩
  hiLoOpen := fun h => by subst h; exact ⟨rfl, rfl⟩
  dcic := rfl
  breakpoints := ⟨rfl, rfl, rfl, rfl⟩
  memory := ⟨fun _ => rfl, rfl, rfl, rfl⟩
  outside := ⟨rfl, rfl, rfl, rfl, rfl⟩
  entered := rfl

/-- `raiseAtBranch` always enters the exception. -/
theorem raiseAtBranch_spec (s : State) (e : Exc) (taken : Bool) (target : Word) :
    ∃ t, raiseAtBranch e s taken target = .next t ∧
      Entered s t e (s.skipped (if taken then target else s.npc + 4)).streamWrites :=
  ⟨_, rfl, enterException_spec s e _⟩

/-- `raise` always enters the exception. -/
theorem raise_spec (s : State) (e : Exc) : ∃ t, raise e s = .next t ∧ Raised s t e :=
  ⟨_, rfl, enterException_spec s e _⟩

/-! ### Accesses -/

/-- The outcomes of a load. -/
theorem loadAccess_eq (s : State) (va : Word) (aligned : Bool) (span : Word × Nat) (rt : RegIdx) (v : Word) :
    loadAccess s va aligned span rt v =
      if !aligned || s.segmentDenied va then raise (.adEL va) s
      else if s.sr.isC then .refused .isolatedCache
      else if s.daHit va false && s.dcic.tr then raise .debug (s.postDataDebug va false)
      else if s.dataBerr false span.1 span.2 then
        raise .dbe ((s.postDataDebug va false).noteParity s.now.parityData)
      else .next (((s.postDataDebug va false).noteParity s.now.parityData).loadBack rt v) := rfl

/-- A load of an accessible address without a bus error completes. -/
theorem loadAccess_next {s : State} {va : Word} {aligned : Bool} {span : Word × Nat} (rt : RegIdx) (v : Word)
    (h : s.accessible va aligned false) (hb : ¬s.BusError false span.1 span.2) :
    ∃ t, loadAccess s va aligned span rt v = .next t ∧ Loaded s t va rt v := by
  obtain ⟨h1, h2, h3, h4⟩ := h
  refine ⟨_, ?_, loadBack_spec s va rt v⟩
  rw [loadAccess_eq, if_neg, if_neg, if_neg, if_neg]
  · simp [dataBerr_false hb]
  · simpa using h4
  · simp [h3]
  · simp only [State.segmentDenied, h1, Bool.not_true, Bool.false_or, Bool.and_eq_true]; exact h2

/-- A store runs where its address is accessible. -/
theorem storeRuns_iff (s : State) (o : StoreOp) : s.storeRuns o = true ↔ s.accessible o.va o.aligned true := by
  simp only [State.storeRuns, State.segmentDenied, State.accessible, Bool.and_eq_true, Bool.not_eq_true', ← Bool.not_eq_true,
    and_assoc]

/-- Memory behind a store that passes its checks is the store's. -/
theorem stored_of_runs {s : State} {o : StoreOp} (h : s.storeRuns o = true) : s.stored o = s.store o.first o.bytes := if_pos h

/-- A store that does not pass its checks leaves everything. -/
theorem stored_of_stops {s : State} {o : StoreOp} (h : s.storeRuns o = false) : s.stored o = s :=
  if_neg (by rw [h]; exact Bool.false_ne_true)

/-- A store to an accessible address completes. -/
theorem storeAccess_next {s : State} (o : StoreOp) (h : s.accessible o.va o.aligned true) :
    storeAccess s o = .next (((s.postDataDebug o.va true).store o.first o.bytes).finish) := by
  obtain ⟨h1, h2, h3, h4⟩ := h
  unfold storeAccess
  rw [if_neg, if_neg, if_neg]
  · simpa using h4
  · simp [h3]
  · simp only [State.segmentDenied, h1, Bool.not_true, Bool.false_or, Bool.and_eq_true]; exact h2

/-! ### Jumps and branches -/

theorem jumpOrBranch_next {s : State} (taken : Bool) (target : Word) (h : s.ds = none) :
    ∃ t, jumpOrBranch s taken target = .next t ∧ Branched s t taken target :=
  ⟨_, by unfold jumpOrBranch; rw [h]; rfl, transfer_spec s taken target⟩

theorem jumpOrBranchLink_next {s : State} (rd : RegIdx) (taken : Bool) (target : Word) (h : s.ds = none) :
    ∃ t, jumpOrBranchLink s rd taken target = .next t ∧ Linked s t rd taken target :=
  ⟨_, by unfold jumpOrBranchLink; rw [h]; rfl, transferLink_spec s rd taken target⟩

/-- With the four Cu bits set every unit is usable. -/
@[simp] theorem Status.usable_all (r : Status) (z : BitVec 2) : Status.usable { r with cu := 0xF } z = true := by
  revert z; simp only [Status.usable]; decide

theorem copBranch_next {s : State} {z : BitVec 2} (sense : Bool) (offset : BitVec 16) (h : s.ds = none)
    (hu : s.sr.usable z = true) :
    ∃ t, copBranch s z sense offset = .next t ∧
      Branched s t (s.now.cpc.getLsbD z.toNat == sense) (s.branchTarget offset) :=
  ⟨_, by unfold copBranch jumpOrBranch; rw [h, hu]; rfl, transfer_spec s _ _⟩

/-- BCzT and BCzF on an unusable unit raise CpU, in a delay slot too. -/
theorem copBranch_unusable {s : State} {z : BitVec 2} (sense : Bool) (offset : BitVec 16) (hu : s.sr.usable z = false) :
    ∃ t, copBranch s z sense offset = .next t ∧
      Entered s t (.cpU z)
        (s.skipped (if s.copCondition z sense then s.branchTarget offset else s.npc + 4)).streamWrites := by
  unfold copBranch; rw [hu]; exact raiseAtBranch_spec s _ _ _

/-- BCzT and BCzF on a usable unit stop in a delay slot. -/
theorem copBranch_inSlot {s : State} {z : BitVec 2} (sense : Bool) (offset : BitVec 16) (hd : s.ds ≠ none)
    (hu : s.sr.usable z = true) : copBranch s z sense offset = .fault .branchInDelaySlot := by
  unfold copBranch jumpOrBranch
  rw [hu, Option.isSome_iff_ne_none.mpr hd]; rfl

end Sys2Proof.Machine
end

