-- ==== Sys2Proof/Laws/Exec.lean ====
section
/-! SUPPORT. Everything an instruction can do: the next states of `exec`, by the shared operation that makes them. -/

namespace Sys2Proof.Machine

/-- The addresses from `first` on lie in the aligned word that holds `va` (20_memory.md R61). -/
def InWordOf (va first : Word) (n : Nat) : Prop :=
  ∀ j < n, alignedWord (first + BitVec.ofNat 32 j) = alignedWord va

/-- The next states of `exec` from `s`. -/
inductive ExecNext (s : State) : State → Prop
  | write (rd : RegIdx) (v : Word) : ExecNext s (s.writeBack rd v)
  | branch (taken : Bool) (target : Word) (h : s.ds = none) : ExecNext s (s.transfer taken target)
  | link (rd : RegIdx) (taken : Bool) (target : Word) (h : s.ds = none) :
      ExecNext s ((s.transfer taken target).setGpr rd s.linkValue)
  | hiLo (hi lo : Word) : ExecNext s (s.setHiLo hi lo).finish
  | load (va : Word) (rt : RegIdx) (v : Word) (h : s.segmentDenied va = false) :
      ExecNext s (((s.postDataDebug va false).noteParity s.now.parityData).loadBack rt v)
  | store (va first : Word) (bs : List Byte) (h : s.segmentDenied va = false) (hw : InWordOf va first bs.length) :
      ExecNext s ((s.postDataDebug va true).store first bs).finish
  | cp0 (rd : RegIdx) (v : Word) (h : s.cp0Denied = false) : ExecNext s (s.cp0Write rd v).finish
  | readCp0 (rt : RegIdx) (v : Word) (h : s.cp0Denied = false) : ExecNext s (s.loadBack rt v)
  | noop : ExecNext s s.finish
  | pop (h : s.cp0Denied = false) : ExecNext s s.popStatus.finish
  | exception (e : Exc) (altered : Bool) : ExecNext s (s.enterException e altered)
  | dataDebug (va : Word) (write altered : Bool) : ExecNext s ((s.postDataDebug va write).enterException .debug altered)
  | dataBus (va : Word) (altered : Bool) :
      ExecNext s (((s.postDataDebug va false).noteParity s.now.parityData).enterException .dbe altered)

theorem raise_next {e : Exc} {s t : State} (h : raise e s = .next t) : ExecNext s t := by
  cases h; exact .exception e _

theorem jumpOrBranch_cases {s t : State} {taken : Bool} {target : Word} (h : jumpOrBranch s taken target = .next t) :
    ExecNext s t := by
  unfold jumpOrBranch at h
  split at h
  · cases h
  · next hd => cases h; exact .branch _ _ (by simpa using hd)

theorem jumpOrBranchLink_cases {s t : State} {rd : RegIdx} {taken : Bool} {target : Word}
    (h : jumpOrBranchLink s rd taken target = .next t) : ExecNext s t := by
  unfold jumpOrBranchLink at h
  split at h
  · cases h
  · next hd => cases h; exact .link _ _ _ (by simpa using hd)

theorem copBranch_cases {s t : State} {z : BitVec 2} {b : Bool} {o : BitVec 16} (h : copBranch s z b o = .next t) :
    ExecNext s t := by
  unfold copBranch at h
  split at h
  · cases h; exact .exception _ _
  · exact jumpOrBranch_cases h

theorem unimplementedCop_cases {s t : State} {z : BitVec 2} {b : Bool} (h : unimplementedCop s z b = .next t) :
    ExecNext s t := by
  unfold unimplementedCop at h
  split at h
  · cases h
  · exact raise_next h

theorem loadAccess_cases {s t : State} {va : Word} {aligned : Bool} {span : Word × Nat} {rt : RegIdx} {v : Word}
    (h : loadAccess s va aligned span rt v = .next t) : ExecNext s t := by
  rw [loadAccess_eq] at h
  split at h
  · cases h; exact .exception _ _
  · next hd =>
    split at h
    · cases h
    · split at h
      · cases h; exact .dataDebug _ _ _
      · split at h
        · cases h; exact .dataBus _ _
        · cases h; exact .load _ _ _ (by simp only [Bool.or_eq_true, not_or, Bool.not_eq_true] at hd; exact hd.2)

theorem storeAccess_cases {s t : State} {o : StoreOp}
    (hw : o.aligned = true → InWordOf o.va o.first o.bytes.length) (h : storeAccess s o = .next t) :
    ExecNext s t := by
  unfold storeAccess at h
  split at h
  · exact raise_next h
  · next hd =>
    simp only [Bool.or_eq_true, not_or, Bool.not_eq_true, Bool.not_eq_false'] at hd
    split at h
    · cases h
    · split at h
      · cases h; exact .dataDebug _ _ _
      · cases h; exact .store _ _ _ hd.2 (hw hd.1)

/-! ### Stored bytes stay in their word (R58, R61) -/

theorem alignedWord_toNat (va : Word) : (alignedWord va).toNat = va.toNat - va.toNat % 4 := by
  have : alignedWord va = (va >>> 2) <<< 2 := by
    apply BitVec.eq_of_getElem_eq
    intro i hi
    unfold alignedWord
    interval_cases i <;> simp
  rw [this, BitVec.toNat_shiftLeft, BitVec.toNat_ushiftRight, Nat.shiftLeft_eq, Nat.shiftRight_eq_div_pow]
  have := va.isLt
  omega

theorem laneOf_toNat (va : Word) : (laneOf va).toNat = va.toNat % 4 := by
  simp [laneOf, BitVec.extractLsb'_toNat]

theorem inWordOf_self {va : Word} {n : Nat} (h : va.toNat % 4 + n ≤ 4) : InWordOf va va n := by
  intro j hj
  apply BitVec.eq_of_toNat_eq
  rw [alignedWord_toNat, alignedWord_toNat, BitVec.toNat_add, BitVec.toNat_ofNat]
  have := va.isLt
  omega

theorem inWordOf_aligned {va : Word} {n : Nat} (h : n ≤ 4) : InWordOf va (alignedWord va) n := by
  intro j hj
  apply BitVec.eq_of_toNat_eq
  rw [alignedWord_toNat, BitVec.toNat_add, BitVec.toNat_ofNat, alignedWord_toNat]
  have := va.isLt
  omega

theorem wordAligned_iff (va : Word) : wordAligned va = true ↔ va.toNat % 4 = 0 := by
  unfold wordAligned
  rw [beq_iff_eq, ← laneOf_toNat]
  exact ⟨fun h => by rw [h]; rfl, fun h => BitVec.eq_of_toNat_eq h⟩

theorem halfAligned_iff (va : Word) : halfAligned va = true ↔ va.toNat % 2 = 0 := by
  unfold halfAligned
  rw [BitVec.getLsbD, Nat.testBit_zero]
  simp

theorem swlBytes_inWord (big : Bool) (va v : Word) : InWordOf va (swlBytes big va v).1 (swlBytes big va v).2.length := by
  have := laneOf_toNat va
  cases big
  · exact inWordOf_aligned (by simp [swlBytes, bytesLsbFirst])
  · refine inWordOf_self ?_
    simp [swlBytes, bytesMsbFirst]
    omega

theorem swrBytes_inWord (big : Bool) (va v : Word) : InWordOf va (swrBytes big va v).1 (swrBytes big va v).2.length := by
  have := laneOf_toNat va
  cases big
  · refine inWordOf_self ?_
    simp [swrBytes, bytesLsbFirst]
    omega
  · exact inWordOf_aligned (by simp [swrBytes, bytesMsbFirst])

/-- Every next state of every instruction is one of `ExecNext`. -/
theorem exec_next {i : Instr} {s t : State} (h : exec i s = .next t) : ExecNext s t := by
  cases i
  case add | sub | addi =>
    simp only [exec, execAdd, execSub, execAddi] at h
    split at h
    · exact raise_next h
    · cases h; exact .write _ _
  case mfc0 =>
    simp only [exec, execMfc0] at h
    split at h
    · exact raise_next h
    · next hd =>
      simp only [Bool.or_eq_true, not_or, Bool.not_eq_true] at hd
      split at h
      · cases h; exact .readCp0 _ _ hd.1
      · cases h; exact .noop
  case mtc0 =>
    simp only [exec, execMtc0] at h
    split at h
    · exact raise_next h
    · next hd =>
      simp only [Bool.or_eq_true, not_or, Bool.not_eq_true] at hd
      cases h; exact .cp0 _ _ hd.1
  case rfe =>
    simp only [exec, execRfe] at h
    split at h
    · exact raise_next h
    · next hd => cases h; exact .pop (by simpa using hd)
  case sb => exact storeAccess_cases (fun _ => inWordOf_self (by simp [State.sbStore, byteBytes]; omega)) h
  case sh rt o b =>
    refine storeAccess_cases (fun ha => inWordOf_self ?_) h
    have ha := (halfAligned_iff _).mp ha
    simp only [State.shStore]; unfold halfBytes; split <;> simp only [List.length_cons, List.length_nil] <;> omega
  case sw rt o b =>
    refine storeAccess_cases (fun ha => inWordOf_self ?_) h
    have ha := (wordAligned_iff _).mp ha
    simp only [State.swStore]; unfold bytesOfWord bytesMsbFirst bytesLsbFirst; split <;> simp only [List.length_cons, List.length_nil] <;> omega
  case swl => exact storeAccess_cases (fun _ => swlBytes_inWord _ _ _) h
  case swr => exact storeAccess_cases (fun _ => swrBytes_inWord _ _ _) h
  case lwc0 | swc0 => cases h
  case lb | lbu | lh | lhu | lw | lwl | lwr => exact loadAccess_cases h
  case syscall | brk | tlbr | tlbwi | tlbwr | tlbp => exact raise_next h
  case j | jr | beq | bne | blez | bgtz | bltz | bgez => exact jumpOrBranch_cases h
  case jal | jalr | bltzal | bgezal => exact jumpOrBranchLink_cases h
  case bc0f | bc0t | bc1f | bc1t | bc2f | bc2t | bc3f | bc3t => exact copBranch_cases h
  case cfc0 | ctc0 | cop0 | mfc1 | cfc1 | mtc1 | ctc1 | cop1 | mfc2 | cfc2 | mtc2 | ctc2 | cop2 | mfc3 | cfc3 | mtc3
      | ctc3 | cop3 | lwc1 | swc1 | lwc2 | swc2 | lwc3 | swc3 => exact unimplementedCop_cases h
  case mult | multu | div | divu | mthi | mtlo => cases h; exact .hiLo _ _
  all_goals cases h; exact .write _ _

end Sys2Proof.Machine
end

