-- ==== Sys2Proof/Laws/Step.lean ====
section
/-! SUPPORT. Everything a step can do: its next states, by what made them. -/

namespace Sys2Proof.Machine

/-! ### What an instruction leaves around it -/

/-- No next state of an instruction changes the configuration, the inputs or the bookkeeping of the step. -/
theorem execNext_outside {s t : State} (h : ExecNext s t) : SameOutside s t := by
  cases h with
  | cp0 => exact ⟨by simp, by simp, by simp, by simp, by simp⟩
  | _ => exact ⟨rfl, rfl, rfl, rfl, rfl⟩

/-! ### The state at the fetch -/

theorem atFetch_eq (s : State) : s.atFetch = s.posted := by
  unfold State.atFetch State.posted State.postFetchDebug
  simp only [Bool.or_assoc]

theorem fetched_eq (s : State) : s.atFetch.noteParity s.now.parityFetch = s.fetched := by
  rw [atFetch_eq]; rfl

/-! ### The checks of the fetch, in terms of addresses -/

theorem fetchDenied_iff (s : State) (va : Word) : s.fetchDenied va = true ↔ ¬s.MayFetch va := by
  unfold State.fetchDenied State.segmentDenied State.MayFetch
  have ha := wordAligned_iff va
  unfold wordAligned at ha
  have hb : va.getLsbD 31 = true ↔ 0x80000000 ≤ va.toNat := by
    rw [← BitVec.msb_eq_getLsbD_last, BitVec.msb_eq_true_iff_two_mul_ge]; omega
  rw [Bool.or_eq_true, Bool.and_eq_true, hb, not_and_or, not_not, ← ha]
  simp

theorem fetchBerr_iff (s : State) : s.fetchBerr = true ↔ s.FetchBusError := by
  rw [State.fetchBerr, Bool.or_eq_true, platformBerr_iff]; simp [State.FetchBusError]

theorem inKseg1_iff (va : Word) : inKseg1 va = true ↔ 0xA0000000 ≤ va.toNat ∧ va.toNat ≤ 0xBFFFFFFF := by
  have h := va.isLt
  have e : (va.extractLsb' 29 3).toNat = va.toNat / 2 ^ 29 := by
    rw [BitVec.extractLsb'_toNat, Nat.shiftRight_eq_div_pow]; omega
  rw [inKseg1, beq_iff_eq, ← BitVec.toNat_inj, e]
  show va.toNat / 2 ^ 29 = 5 ↔ _
  omega

theorem staleCode_iff (s : State) (va : Word) : s.staleCode va = true ↔ s.StoredCode va := by
  have hj : (∃ j < 4, s.cellOf (va + BitVec.ofNat 32 j) ∈ s.storedTo) ↔
      s.cellOf va ∈ s.storedTo ∨ s.cellOf (va + 1) ∈ s.storedTo ∨ s.cellOf (va + 2) ∈ s.storedTo ∨
        s.cellOf (va + 3) ∈ s.storedTo := by
    constructor
    · rintro ⟨j, h, hm⟩
      interval_cases j
      · exact .inl (by simpa using hm)
      · exact .inr (.inl hm)
      · exact .inr (.inr (.inl hm))
      · exact .inr (.inr (.inr hm))
    · rintro (h | h | h | h)
      · exact ⟨0, by omega, by simpa using h⟩
      · exact ⟨1, by omega, h⟩
      · exact ⟨2, by omega, h⟩
      · exact ⟨3, by omega, h⟩
  unfold State.StoredCode
  rw [hj, ← inKseg1_iff]
  simp [State.staleCode, cacheable, or_assoc]

theorem delivers_iff (s : State) (va : Word) : s.delivers va = true ↔ s.Delivers va := by
  have h := fetchDenied_iff s va
  rw [State.delivers, Bool.and_eq_true, Bool.not_eq_true', Bool.not_eq_true', ← Bool.not_eq_true, ← Bool.not_eq_true, h,
    platformBerr_iff, not_not]
  simp [State.Delivers]

theorem unknownWord_iff (s : State) (va : Word) : s.unknownWord va = true ↔ s.UnknownWord va := by
  rw [State.unknownWord, Bool.or_eq_true, staleCode_iff]
  simp [State.UnknownWord]

/-- A word that is known reads the same to a fetch and to a load. -/
theorem codeAt_of_known {s : State} {va : Word} (h : ¬s.UnknownWord va) : s.codeAt va = s.wordAt va := by
  refine State.codeAt_eq_wordAt fun j hj => ?_
  simp only [State.UnknownWord, not_or, not_exists, not_and] at h
  exact h.2 j hj

theorem instrAt_iff (s : State) (va : Word) (i : Instr) : s.instrAt va = some i ↔ s.InstrAt va i := by
  unfold State.instrAt State.InstrAt
  by_cases hd : s.Delivers va
  · by_cases hu : s.UnknownWord va
    · simp [(unknownWord_iff s va).mpr hu, hu]
    · have hu' : s.unknownWord va = false := by rw [← Bool.not_eq_true, unknownWord_iff]; exact hu
      rw [(delivers_iff s va).mpr hd, hu', codeAt_of_known hu]
      refine Iff.trans ?_ ⟨fun h => ⟨hd, hu, h⟩, fun h => h.2.2⟩
      cases decodeWord (s.wordAt va) <;> simp
  · have hd' : s.delivers va = false := by rw [← Bool.not_eq_true, delivers_iff]; exact hd
    simp [hd', hd]

/-- What the fetch does once no debug condition stops it or traps, in the order of its checks. -/
theorem fetchAndRun_of_reaches {s : State} (h : s.ReachesFetch) :
    fetchAndRun s =
      if s.fetchDenied s.pc then raise (.adEL s.pc) s.posted
      else if s.fetchBerr then raise .ibe s.fetched
      else if s.staleCode s.pc then .fault .fetchAfterStoreToCode
      else runWord s.fetched (s.codeAt s.pc) := by
  unfold fetchAndRun
  rw [fetched_eq, atFetch_eq, if_neg, if_neg]
  · simpa using h.noTrap
  · simpa using h.noStop

/-- A fetch that delivers a word goes on with that word. -/
theorem fetchAndRun_of_fetches {s : State} (h : s.FetchesWord) :
    fetchAndRun s = runWord s.fetched (s.codeAt s.pc) := by
  rw [fetchAndRun_of_reaches h.toReachesFetch, if_neg, if_neg, if_neg]
  · rw [staleCode_iff]; exact h.noStoredCode
  · rw [fetchBerr_iff]; exact h.noBusError
  · rw [fetchDenied_iff]; exact fun e => e h.allowed

/-! ### From the fetch to the end of the instruction -/

/-- What the fetch stage and the instruction answer, before the end of the step. -/
inductive FetchNext (s : State) : State → Prop
  | debug (h : s.pcHit = true ∨ s.traceHit = true) (ht : s.dcic.tr = true) :
      FetchNext s (s.posted.enterException .debug s.posted.writesBehind)
  | address (h : s.fetchDenied s.pc = true) :
      FetchNext s (s.posted.enterException (.adEL s.pc) (s.posted.skipped (s.npc + 4)).streamWrites)
  | bus (h : s.fetchBerr = true) :
      FetchNext s (s.fetched.enterException .ibe (s.fetched.skipped (s.npc + 4)).streamWrites)
  | reserved (h : decodeWord (s.codeAt s.pc) = .reservedMajor ∨ decodeWord (s.codeAt s.pc) = .reservedMinor) :
      FetchNext s (s.fetched.enterException .ri (s.fetched.skipped (s.npc + 4)).streamWrites)
  | late (i : Instr) (h : s.storeErrorDue = true) :
      FetchNext s
        ({ s.fetched with storeError := false }.enterException .dbe
          (writesHiLo i || (State.past { s.fetched with storeError := false } i).streamWrites))
  | interrupt (i : Instr) (h : s.interrupted = true) :
      FetchNext s (s.fetched.enterException .int (writesHiLo i || (s.fetched.past i).streamWrites))
  | instr (i : Instr) (t : State) (hd : decodeWord (s.codeAt s.pc) = .instr i) (h : exec i s.fetched = .next t) :
      FetchNext s t

theorem runInstr_cases {s t : State} {i : Instr} (hd : decodeWord (s.codeAt s.pc) = .instr i)
    (h : runInstr s.fetched i = .next t) : FetchNext s t := by
  unfold runInstr at h
  split at h
  · exact .instr i t hd h
  · split at h
    · next hl => cases h; exact .late i hl
    · split at h
      · next hi => cases h; exact .interrupt i hi
      · exact .instr i t hd h

/-- The next states of the fetch and what follows it. -/
theorem fetchAndRun_cases {s t : State} (h : fetchAndRun s = .next t) : FetchNext s t := by
  unfold fetchAndRun at h
  rw [fetched_eq, atFetch_eq] at h
  split at h
  · cases h
  · split at h
    · next hb =>
      simp only [Bool.and_eq_true, Bool.or_eq_true] at hb
      cases h; exact .debug hb.1 hb.2
    · split at h
      · next ha => cases h; exact .address ha
      · split at h
        · next hb => cases h; exact .bus hb
        · split at h
          · cases h
          · unfold runWord at h
            split at h
            · next i hd => exact runInstr_cases hd h
            · next hd => cases h; exact .reserved (.inl hd)
            · next hd => cases h; exact .reserved (.inr hd)
            · cases h
            · cases h

theorem fetchNext_outside {s t : State} (h : FetchNext s t) : SameOutside s t := by
  cases h with
  | instr i t hd h =>
    obtain ⟨a, b, c, d, e⟩ := execNext_outside (exec_next h)
    exact ⟨a, b, c, d, e⟩
  | _ => exact ⟨rfl, rfl, rfl, rfl, rfl⟩

/-! ### The step -/

/-- A step without reset is the fetch and what follows it, and the end of the step. -/
theorem step_of_fetch {s : State} (h1 : s.now.reset = none) (h2 : s.resetHeld = none) :
    step s =
      match fetchAndRun s with
      | .next t => .next (t.after s)
      | .fault f => .fault f
      | .refused r => .refused r := by
  unfold step cycle
  rw [h1, h2]
  simp only
  cases h : fetchAndRun s with
  | next t =>
    have o := fetchNext_outside (fetchAndRun_cases h)
    show Host.Outcome.next _ = _
    unfold State.endStep State.tick State.after
    rw [o.env, o.draws]
  | fault => rfl
  | refused => rfl

/-- The next states of a step. -/
inductive StepNext (s : State) : State → Prop
  | held (k : ResetKind) (h : s.now.reset = some k) : StepNext s { s.tick with resetHeld := some k }
  | reset (k : ResetKind) (h : s.now.reset = none) (hk : s.resetHeld = some k) : StepNext s (s.applyReset k).tick
  | run (t : State) (h : s.now.reset = none) (hk : s.resetHeld = none) (hr : FetchNext s t) : StepNext s (t.after s)

/-- Every next state of every step is one of `StepNext`. -/
theorem step_next {s t : State} (h : step s = .next t) : StepNext s t := by
  cases h1 : s.now.reset with
  | some k =>
    unfold step cycle at h
    rw [h1] at h
    cases h; exact .held k h1
  | none =>
    cases h2 : s.resetHeld with
    | some k =>
      unfold step cycle at h
      rw [h1, h2] at h
      cases h; exact .reset k h1 h2
    | none =>
      rw [step_of_fetch h1 h2] at h
      cases hf : fetchAndRun s with
      | next u => rw [hf] at h; cases h; exact .run u h1 h2 (fetchAndRun_cases hf)
      | fault => rw [hf] at h; cases h
      | refused => rw [hf] at h; cases h

end Sys2Proof.Machine
end

