-- ==== Sys2Proof/Tests/Slice0.lean ====
section
/-! SUPPORT. Tests. The expected values are those of 95_test_vectors.md (its section is named beside each group) or written out
from the encodings of 30_encoding.md; the witnesses at the end show, for every statement with hypotheses, that states meet
them. -/

namespace Sys2Proof.Tests

open Sys2Proof Sys2Proof.Machine

/-! ### States -/

/-- Kernel mode, SR = 0, at 0x80010000, big-endian, with two registers set. -/
def start (x4 x5 : Word) : State :=
  { State.reset with
    gpr := (State.reset.gpr.set 4 x4).set 5 x5
    pc := 0x80010000
    npc := 0x80010004
    sr := { State.reset.sr with bev := false } }

/-- The same in user mode at 0x00400000. -/
def user (x4 x5 : Word) : State :=
  { start x4 x5 with pc := 0x00400000, npc := 0x00400004, sr := { State.reset.sr with bev := false, kuc := true } }

/-- The eight bytes of section 2.1 at 0x80001000. -/
def withData (s : State) : State :=
  { s with mem := layCells s.params s.mem 0x80001000 [0x80, 0x91, 0xA2, 0xB3, 0xC4, 0xD5, 0xE6, 0xF7] }

/-- The platform with one region at the physical addresses 0x1000 to 0x1FFF. -/
def withRegion (p : Place) (berr : Bool) (s : State) : State :=
  { s with params :=
      { s.params with
        platform := [{ first := 0x1000, last := 0x1FFF, place := p, berrRead := berr, berrWrite := berr }] } }

/-- The little-endian configuration. -/
def little (s : State) : State := { s with params := { s.params with bigEndian := false } }

/-- The state with an instruction word at `pc`. -/
def placing (s : State) (w : Word) : State := s.withWordAtPc w

/-- The state in the delay slot of a taken branch at `pc - 4`. -/
def inSlot (s : State) : State := { s with ds := some ⟨s.pc - 4, true, 0x80020000⟩, npc := 0x80020000 }

/-- `exec` gives a next state, with this property. -/
def gives (i : Instr) (s : State) (p : State → Bool) : Bool :=
  match exec i s with
  | .next t => p t
  | .fault _ => false
  | .refused _ => false

/-- `exec` stops with this fault. -/
def faults (i : Instr) (s : State) (f : Fault) : Bool :=
  match exec i s with
  | .next _ => false
  | .fault g => f == g
  | .refused _ => false

/-- `exec` refuses with this reason. -/
def refuses (i : Instr) (s : State) (r : Refusal) : Bool :=
  match exec i s with
  | .next _ => false
  | .fault _ => false
  | .refused q => r == q

/-- `step` stops with this fault. -/
def stepFaults (s : State) (f : Fault) : Bool :=
  match step s with
  | .next _ => false
  | .fault g => f == g
  | .refused _ => false

/-- `step` gives a next state, with this property. -/
def stepGives (s : State) (p : State → Bool) : Bool :=
  match step s with
  | .next t => p t
  | .fault _ => false
  | .refused _ => false

/-! ### WellFormed: the check refuses each of its ill-formed terms (30_encoding.md R87) -/

theorem test_illFormed_tlbr : (Instr.cop0 0x01).wellFormed = false := by decide
theorem test_illFormed_tlbwi : (Instr.cop0 0x02).wellFormed = false := by decide
theorem test_illFormed_tlbwr : (Instr.cop0 0x06).wellFormed = false := by decide
theorem test_illFormed_tlbp : (Instr.cop0 0x08).wellFormed = false := by decide
theorem test_illFormed_rfe : (Instr.cop0 0x10).wellFormed = false := by decide
theorem test_wellFormed_cop0 : (Instr.cop0 0x11).wellFormed = true := by decide

/-! ### Decoding, every row: words written out from the fields of 30_encoding.md R81 and R84 to R87, with rs = 9, rt = 10,
rd = 11, base = 29, shamt = 3, offset = 0x8004, imm = 0x8001 -/

theorem test_decode_shift :
    decodeWord 0x000A58C0 = .instr (.sll 11 10 3) ∧
    decodeWord 0x000A58C2 = .instr (.srl 11 10 3) ∧
    decodeWord 0x000A58C3 = .instr (.sra 11 10 3) ∧
    decodeWord 0x012A5804 = .instr (.sllv 11 10 9) ∧
    decodeWord 0x012A5806 = .instr (.srlv 11 10 9) ∧
    decodeWord 0x012A5807 = .instr (.srav 11 10 9) := by decide

theorem test_decode_jump :
    decodeWord 0x01200008 = .instr (.jr 9) ∧
    decodeWord 0x01205809 = .instr (.jalr 9 11) ∧
    decodeWord 0x0A000401 = .instr (.j 0x2000401) ∧
    decodeWord 0x0E000401 = .instr (.jal 0x2000401) := by decide

theorem test_decode_branch :
    decodeWord 0x05208004 = .instr (.bltz 9 0x8004) ∧
    decodeWord 0x05218004 = .instr (.bgez 9 0x8004) ∧
    decodeWord 0x05308004 = .instr (.bltzal 9 0x8004) ∧
    decodeWord 0x05318004 = .instr (.bgezal 9 0x8004) ∧
    decodeWord 0x112A8004 = .instr (.beq 9 10 0x8004) ∧
    decodeWord 0x152A8004 = .instr (.bne 9 10 0x8004) ∧
    decodeWord 0x19208004 = .instr (.blez 9 0x8004) ∧
    decodeWord 0x1D208004 = .instr (.bgtz 9 0x8004) := by decide

theorem test_decode_special :
    decodeWord 0x029401CC = .instr (.syscall 0xa5007) ∧
    decodeWord 0x029401CD = .instr (.brk 0xa5007) := by decide

theorem test_decode_mul_div :
    decodeWord 0x00005810 = .instr (.mfhi 11) ∧
    decodeWord 0x01200011 = .instr (.mthi 9) ∧
    decodeWord 0x00005812 = .instr (.mflo 11) ∧
    decodeWord 0x01200013 = .instr (.mtlo 9) ∧
    decodeWord 0x012A0018 = .instr (.mult 9 10) ∧
    decodeWord 0x012A0019 = .instr (.multu 9 10) ∧
    decodeWord 0x012A001A = .instr (.div 9 10) ∧
    decodeWord 0x012A001B = .instr (.divu 9 10) := by decide

theorem test_decode_alu_register :
    decodeWord 0x012A5820 = .instr (.add 11 9 10) ∧
    decodeWord 0x012A5821 = .instr (.addu 11 9 10) ∧
    decodeWord 0x012A5822 = .instr (.sub 11 9 10) ∧
    decodeWord 0x012A5823 = .instr (.subu 11 9 10) ∧
    decodeWord 0x012A5824 = .instr (.and 11 9 10) ∧
    decodeWord 0x012A5825 = .instr (.or 11 9 10) ∧
    decodeWord 0x012A5826 = .instr (.xor 11 9 10) ∧
    decodeWord 0x012A5827 = .instr (.nor 11 9 10) ∧
    decodeWord 0x012A582A = .instr (.slt 11 9 10) ∧
    decodeWord 0x012A582B = .instr (.sltu 11 9 10) := by decide

theorem test_decode_alu_immediate :
    decodeWord 0x212A8001 = .instr (.addi 10 9 0x8001) ∧
    decodeWord 0x252A8001 = .instr (.addiu 10 9 0x8001) ∧
    decodeWord 0x292A8001 = .instr (.slti 10 9 0x8001) ∧
    decodeWord 0x2D2A8001 = .instr (.sltiu 10 9 0x8001) ∧
    decodeWord 0x312A8001 = .instr (.andi 10 9 0x8001) ∧
    decodeWord 0x352A8001 = .instr (.ori 10 9 0x8001) ∧
    decodeWord 0x392A8001 = .instr (.xori 10 9 0x8001) ∧
    decodeWord 0x3C0A8001 = .instr (.lui 10 0x8001) := by decide

theorem test_decode_cp0 :
    decodeWord 0x400A5800 = .instr (.mfc0 10 11) ∧
    decodeWord 0x408A5800 = .instr (.mtc0 10 11) ∧
    decodeWord 0x42000010 = .instr .rfe ∧
    decodeWord 0x42000001 = .instr .tlbr ∧
    decodeWord 0x42000002 = .instr .tlbwi ∧
    decodeWord 0x42000006 = .instr .tlbwr ∧
    decodeWord 0x42000008 = .instr .tlbp := by decide

theorem test_decode_cop0 :
    decodeWord 0x404A5800 = .instr (.cfc0 10 11) ∧
    decodeWord 0x40CA5800 = .instr (.ctc0 10 11) ∧
    decodeWord 0x41008004 = .instr (.bc0f 0x8004) ∧
    decodeWord 0x41018004 = .instr (.bc0t 0x8004) ∧
    decodeWord 0x43000020 = .instr (.cop0 0x1000020) := by decide

theorem test_decode_cop1 :
    decodeWord 0x440A5800 = .instr (.mfc1 10 11) ∧
    decodeWord 0x444A5800 = .instr (.cfc1 10 11) ∧
    decodeWord 0x448A5800 = .instr (.mtc1 10 11) ∧
    decodeWord 0x44CA5800 = .instr (.ctc1 10 11) ∧
    decodeWord 0x45008004 = .instr (.bc1f 0x8004) ∧
    decodeWord 0x45018004 = .instr (.bc1t 0x8004) ∧
    decodeWord 0x47000020 = .instr (.cop1 0x1000020) := by decide

theorem test_decode_cop2 :
    decodeWord 0x480A5800 = .instr (.mfc2 10 11) ∧
    decodeWord 0x484A5800 = .instr (.cfc2 10 11) ∧
    decodeWord 0x488A5800 = .instr (.mtc2 10 11) ∧
    decodeWord 0x48CA5800 = .instr (.ctc2 10 11) ∧
    decodeWord 0x49008004 = .instr (.bc2f 0x8004) ∧
    decodeWord 0x49018004 = .instr (.bc2t 0x8004) ∧
    decodeWord 0x4B000020 = .instr (.cop2 0x1000020) := by decide

theorem test_decode_cop3 :
    decodeWord 0x4C0A5800 = .instr (.mfc3 10 11) ∧
    decodeWord 0x4C4A5800 = .instr (.cfc3 10 11) ∧
    decodeWord 0x4C8A5800 = .instr (.mtc3 10 11) ∧
    decodeWord 0x4CCA5800 = .instr (.ctc3 10 11) ∧
    decodeWord 0x4D008004 = .instr (.bc3f 0x8004) ∧
    decodeWord 0x4D018004 = .instr (.bc3t 0x8004) ∧
    decodeWord 0x4F000020 = .instr (.cop3 0x1000020) := by decide

theorem test_decode_load :
    decodeWord 0x83AA8004 = .instr (.lb 10 0x8004 29) ∧
    decodeWord 0x87AA8004 = .instr (.lh 10 0x8004 29) ∧
    decodeWord 0x8BAA8004 = .instr (.lwl 10 0x8004 29) ∧
    decodeWord 0x8FAA8004 = .instr (.lw 10 0x8004 29) ∧
    decodeWord 0x93AA8004 = .instr (.lbu 10 0x8004 29) ∧
    decodeWord 0x97AA8004 = .instr (.lhu 10 0x8004 29) ∧
    decodeWord 0x9BAA8004 = .instr (.lwr 10 0x8004 29) := by decide

theorem test_decode_store :
    decodeWord 0xA3AA8004 = .instr (.sb 10 0x8004 29) ∧
    decodeWord 0xA7AA8004 = .instr (.sh 10 0x8004 29) ∧
    decodeWord 0xABAA8004 = .instr (.swl 10 0x8004 29) ∧
    decodeWord 0xAFAA8004 = .instr (.sw 10 0x8004 29) ∧
    decodeWord 0xBBAA8004 = .instr (.swr 10 0x8004 29) := by decide

theorem test_decode_cop_load_store :
    decodeWord 0xC3AA8004 = .instr (.lwc0 10 0x8004 29) ∧
    decodeWord 0xE3AA8004 = .instr (.swc0 10 0x8004 29) ∧
    decodeWord 0xC7AA8004 = .instr (.lwc1 10 0x8004 29) ∧
    decodeWord 0xE7AA8004 = .instr (.swc1 10 0x8004 29) ∧
    decodeWord 0xCBAA8004 = .instr (.lwc2 10 0x8004 29) ∧
    decodeWord 0xEBAA8004 = .instr (.swc2 10 0x8004 29) ∧
    decodeWord 0xCFAA8004 = .instr (.lwc3 10 0x8004 29) ∧
    decodeWord 0xEFAA8004 = .instr (.swc3 10 0x8004 29) := by decide

/-- The order of the table's rows: RFE before COP0 (R83 step 3); and a word of no row, SLL with a nonzero rs. -/
theorem test_table_order : instrOfTable 0x42000010 = some .rfe ∧ instrOfTable 0x42000011 = some (.cop0 0x11) ∧
    instrOfTable 0x00200000 = none := by decide
/-- Words of no row: a nonzero must-be-zero field, a COP1 form not in the table; and the two reserved sets. -/
theorem test_decode_other :
    decodeWord 0x00200000 = .unlisted ∧ decodeWord 0x44200000 = .unlisted ∧ decodeWord 0x50000000 = .reservedMajor ∧
    decodeWord 0x00000001 = .reservedMinor := by decide

theorem test_decodeTableWord : decodeTableWord 32 0x00851020 = some (.add 2 4 5) := by decide

/-- Too few bytes, in either byte order. -/
theorem test_decode_bytes :
    (decodeBytes true [0x00, 0x85, 0x10, 0x20]).1 = .instr (.add 2 4 5) ∧
    (decodeBytes false [0x20, 0x10, 0x85, 0x00]).1 = .instr (.add 2 4 5) ∧
    (decodeBytes true [0x00, 0x85, 0x10]).1 = .truncated := by decide

/-! ### Loads and stores (2.1, 2.2) -/

theorem test_lb : gives (.lb 8 1 4) (withData (start 0x80001000 0x11223344)) (fun t => t.ld == some ⟨8, 0xFFFFFF91⟩) := by decide
theorem test_lbu : gives (.lbu 8 7 4) (withData (start 0x80001000 0x11223344)) (fun t => t.ld == some ⟨8, 0x000000F7⟩) := by decide
theorem test_lh : gives (.lh 8 2 4) (withData (start 0x80001000 0x11223344)) (fun t => t.ld == some ⟨8, 0xFFFFA2B3⟩) := by decide
theorem test_lh_little : gives (.lh 8 2 4) (little (withData (start 0x80001000 0x11223344))) (fun t => t.ld == some ⟨8, 0xFFFFB3A2⟩) := by decide
theorem test_lhu : gives (.lhu 8 6 4) (withData (start 0x80001000 0x11223344)) (fun t => t.ld == some ⟨8, 0x0000E6F7⟩) := by decide
theorem test_lw : gives (.lw 8 4 4) (withData (start 0x80001000 0x11223344)) (fun t => t.ld == some ⟨8, 0xC4D5E6F7⟩) := by decide
theorem test_lw_little : gives (.lw 8 4 4) (little (withData (start 0x80001000 0x11223344))) (fun t => t.ld == some ⟨8, 0xF7E6D5C4⟩) := by decide
theorem test_lw_negative_offset : gives (.lw 8 0xFFFC 4) (withData (start 0x80001004 0)) (fun t => t.ld == some ⟨8, 0x8091A2B3⟩) := by decide
theorem test_lwl : gives (.lwl 5 1 4) (withData (start 0x80001000 0x11223344)) (fun t => t.ld == some ⟨5, 0x91A2B344⟩) := by decide
theorem test_lwl_little : gives (.lwl 5 1 4) (little (withData (start 0x80001000 0x11223344))) (fun t => t.ld == some ⟨5, 0x91803344⟩) := by decide
theorem test_lwr : gives (.lwr 5 2 4) (withData (start 0x80001000 0x11223344)) (fun t => t.ld == some ⟨5, 0x118091A2⟩) := by decide
theorem test_lwr_little : gives (.lwr 5 2 4) (little (withData (start 0x80001000 0x11223344))) (fun t => t.ld == some ⟨5, 0x1122B3A2⟩) := by decide
theorem test_lw_misaligned : gives (.lw 8 2 4) (withData (start 0x80001000 0x11223344)) (fun t => t.badA == 0x80001002 && t.cause.excCode == 4 && t.pc == 0x80000080) := by decide
theorem test_sb : gives (.sb 5 5 4) (withData (start 0x80001000 0x11223344)) (fun t => t.wordAt 0x80001000 == 0x8091A2B3 && t.wordAt 0x80001004 == 0xC444E6F7) := by decide
theorem test_sh : gives (.sh 5 6 4) (withData (start 0x80001000 0x11223344)) (fun t => t.wordAt 0x80001000 == 0x8091A2B3 && t.wordAt 0x80001004 == 0xC4D53344) := by decide
theorem test_sw : gives (.sw 5 4 4) (withData (start 0x80001000 0x11223344)) (fun t => t.wordAt 0x80001000 == 0x8091A2B3 && t.wordAt 0x80001004 == 0x11223344) := by decide
theorem test_swl : gives (.swl 5 1 4) (withData (start 0x80001000 0x11223344)) (fun t => t.wordAt 0x80001000 == 0x80112233 && t.wordAt 0x80001004 == 0xC4D5E6F7) := by decide
theorem test_swl_little : gives (.swl 5 1 4) (little (withData (start 0x80001000 0x11223344))) (fun t => t.byteAt 0x80001000 == 0x22 && t.byteAt 0x80001001 == 0x11 && t.byteAt 0x80001002 == 0xA2) := by decide
theorem test_swr : gives (.swr 5 2 4) (withData (start 0x80001000 0x11223344)) (fun t => t.wordAt 0x80001000 == 0x223344B3 && t.wordAt 0x80001004 == 0xC4D5E6F7) := by decide
theorem test_swr_little : gives (.swr 5 2 4) (little (withData (start 0x80001000 0x11223344))) (fun t => t.byteAt 0x80001001 == 0x91 && t.byteAt 0x80001002 == 0x44 && t.byteAt 0x80001003 == 0x33) := by decide
theorem test_sw_user_kseg1 : gives (.sb 5 0 4) (user 0xA0001000 0) (fun t => t.badA == 0xA0001000 && t.cause.excCode == 5 && t.sr.toWord == 8) := by decide

/-- R4, R55, R62: read-only memory keeps its bytes; an absent address ends a load with DBE, a store with a late error. -/
theorem test_rom : gives (.sw 5 4 4) (withRegion .rom false (withData (start 0x80001000 0x11223344))) (fun t => t.wordAt 0x80001004 == 0xC4D5E6F7 && !t.storeError) := by decide
/-- R318: what a byte reads as after a failed store is open, of read-only memory too, until writable memory takes a store. -/
theorem test_failed_store_rom : gives (.sb 5 4 4) (withRegion .rom true (withData (start 0x80001000 0))) (fun t => t.failed == [0x1004] && t.storeError) := by decide
theorem test_failed_store_settled : gives (.sb 5 4 4) { withData (start 0x80001000 7) with failed := [0x1004, 0x1005] } (fun t => t.failed == [0x1005] && t.byteAt 0x80001004 == 7) := by decide
theorem test_absent_load : gives (.lw 8 4 4) (withRegion .device true (withData (start 0x80001000 0))) (fun t => t.ld == none && t.cause.excCode == 7) := by decide
theorem test_absent_store : gives (.sw 5 4 4) (withRegion .device true (withData (start 0x80001000 0))) (fun t => t.storeError && t.pc == 0x80010004) := by decide

/-! ### ALU (2.3 to 2.5) -/

theorem test_addi : gives (.addi 2 4 0x7FFF) (start 1 0) (fun t => t.x 2 == 0x00008000) := by decide
theorem test_addi_overflow : gives (.addi 2 4 0xFFFF) (start 0x80000000 0) (fun t => t.x 2 == 0 && t.cause.excCode == 12 && t.epc == 0x80010000) := by decide
theorem test_addiu : gives (.addiu 2 4 0x8000) (start 0x00008000 0) (fun t => t.x 2 == 0) := by decide
theorem test_slti : gives (.slti 2 4 0xFFFF) (start 0xFFFFFFFE 0) (fun t => t.x 2 == 1) := by decide
theorem test_sltiu : gives (.sltiu 2 4 0x8000) (start 0x7FFFFFFF 0) (fun t => t.x 2 == 1) := by decide
theorem test_andi : gives (.andi 2 4 0x8000) (start 0xFFFFFFFF 0) (fun t => t.x 2 == 0x00008000) := by decide
theorem test_ori : gives (.ori 2 4 0x8000) (start 0x12340000 0) (fun t => t.x 2 == 0x12348000) := by decide
theorem test_xori : gives (.xori 2 4 0xFFFF) (start 0xFFFFFFFF 0) (fun t => t.x 2 == 0xFFFF0000) := by decide
theorem test_lui : gives (.lui 2 0x8000) (start 0 0) (fun t => t.x 2 == 0x80000000) := by decide
theorem test_add : gives (.add 2 4 5) (start 0x7FFFFFFF 0x80000000) (fun t => t.x 2 == 0xFFFFFFFF) := by decide
theorem test_add_overflow : gives (.add 2 4 5) (start 0x7FFFFFFF 1) (fun t => t.x 2 == 0 && t.cause.excCode == 12 && t.pc == 0x80000080) := by decide
theorem test_addu : gives (.addu 2 4 5) (start 0x7FFFFFFF 1) (fun t => t.x 2 == 0x80000000) := by decide
theorem test_sub : gives (.sub 2 4 5) (start 5 7) (fun t => t.x 2 == 0xFFFFFFFE) := by decide
theorem test_sub_overflow : gives (.sub 2 4 5) (start 0 0x80000000) (fun t => t.cause.excCode == 12) := by decide
theorem test_subu : gives (.subu 2 4 5) (start 0 1) (fun t => t.x 2 == 0xFFFFFFFF) := by decide
theorem test_slt : gives (.slt 2 4 5) (start 0x80000000 0x7FFFFFFF) (fun t => t.x 2 == 1) := by decide
theorem test_sltu : gives (.sltu 2 4 5) (start 0x80000000 0x7FFFFFFF) (fun t => t.x 2 == 0) := by decide
theorem test_and : gives (.and 2 4 5) (start 0xF0F0FF00 0x0FF0F0F0) (fun t => t.x 2 == 0x00F0F000) := by decide
theorem test_or : gives (.or 2 4 5) (start 0xF0F0FF00 0x0FF0F0F0) (fun t => t.x 2 == 0xFFF0FFF0) := by decide
theorem test_xor : gives (.xor 2 4 5) (start 0xF0F0FF00 0x0FF0F0F0) (fun t => t.x 2 == 0xFF000FF0) := by decide
theorem test_nor : gives (.nor 2 4 5) (start 0xF0F0FF00 0x0FF0F0F0) (fun t => t.x 2 == 0x000F000F) := by decide
theorem test_sll : gives (.sll 2 4 4) (start 0x80000001 0) (fun t => t.x 2 == 0x00000010) := by decide
theorem test_srl : gives (.srl 2 4 31) (start 0x80000001 0) (fun t => t.x 2 == 1) := by decide
theorem test_sra : gives (.sra 2 4 4) (start 0x80000001 0) (fun t => t.x 2 == 0xF8000000) := by decide
theorem test_sllv : gives (.sllv 2 4 5) (start 1 0xFFFFFFFF) (fun t => t.x 2 == 0x80000000) := by decide
theorem test_srlv : gives (.srlv 2 4 5) (start 0x80000001 0xFFFFFFE0) (fun t => t.x 2 == 0x80000001) := by decide
theorem test_srav : gives (.srav 2 4 5) (start 0x80000001 0x3F) (fun t => t.x 2 == 0xFFFFFFFF) := by decide

/-! ### Multiply and divide (2.6) -/

theorem test_mult : gives (.mult 4 5) (start 0x80000000 0x7FFFFFFF) (fun t => t.hi == 0xC0000000 && t.lo == 0x80000000) := by decide
theorem test_multu : gives (.multu 4 5) (start 0xFFFFFFFF 0xFFFFFFFF) (fun t => t.hi == 0xFFFFFFFE && t.lo == 1) := by decide
theorem test_div : gives (.div 4 5) (start 0xFFFFFFF9 2) (fun t => t.hi == 0xFFFFFFFF && t.lo == 0xFFFFFFFD) := by decide
theorem test_div_negative_divisor : gives (.div 4 5) (start 7 0xFFFFFFFE) (fun t => t.hi == 1 && t.lo == 0xFFFFFFFD) := by decide
theorem test_divu : gives (.divu 4 5) (start 0xFFFFFFF9 2) (fun t => t.hi == 1 && t.lo == 0x7FFFFFFC) := by decide
theorem test_mfhi : gives (.mfhi 2) ({ start 0xCAFEF00D 0 with hi := 0x11111111, lo := 0x22222222 }) (fun t => t.x 2 == 0x11111111) := by decide
theorem test_mflo : gives (.mflo 2) ({ start 0xCAFEF00D 0 with hi := 0x11111111, lo := 0x22222222 }) (fun t => t.x 2 == 0x22222222) := by decide
theorem test_mthi : gives (.mthi 4) ({ start 0xCAFEF00D 0 with hi := 0x11111111, lo := 0x22222222 }) (fun t => t.hi == 0xCAFEF00D && t.lo == 0x22222222) := by decide
theorem test_mtlo : gives (.mtlo 4) ({ start 0xCAFEF00D 0 with hi := 0x11111111, lo := 0x22222222 }) (fun t => t.hi == 0x11111111 && t.lo == 0xCAFEF00D) := by decide

/-! ### Jumps and branches (2.7) -/

theorem test_j : gives (.j 0x3FFFFFF) (start 0 0) (fun t => t.pc == 0x80010004 && t.npc == 0x8FFFFFFC && t.ds == some ⟨0x80010000, true, 0x8FFFFFFC⟩) := by decide
theorem test_j_region_of_slot : gives (.j 0x400) ({ start 0 0 with pc := 0x8FFFFFFC, npc := 0x90000000 }) (fun t => t.npc == 0x90001000) := by decide
theorem test_jal : gives (.jal 0x400) (start 0 0) (fun t => t.pc == 0x80010004 && t.npc == 0x80001000 && t.ds == some ⟨0x80010000, true, 0x80001000⟩ && t.x 31 == 0x80010008) := by decide
theorem test_jr : gives (.jr 4) (start 0x80002000 0) (fun t => t.pc == 0x80010004 && t.npc == 0x80002000 && t.ds == some ⟨0x80010000, true, 0x80002000⟩) := by decide
theorem test_jalr : gives (.jalr 4 5) (start 0x80002000 0) (fun t => t.pc == 0x80010004 && t.npc == 0x80002000 && t.ds == some ⟨0x80010000, true, 0x80002000⟩ && t.x 5 == 0x80010008) := by decide
theorem test_beq : gives (.beq 4 5 3) (start 7 7) (fun t => t.pc == 0x80010004 && t.npc == 0x80010010 && t.ds == some ⟨0x80010000, true, 0x80010010⟩) := by decide
theorem test_beq_not_taken : gives (.beq 4 5 3) (start 7 8) (fun t => t.pc == 0x80010004 && t.npc == 0x80010008 && t.ds == some ⟨0x80010000, false, 0x80010010⟩) := by decide
theorem test_bne : gives (.bne 4 5 0x8000) (start 7 8) (fun t => t.pc == 0x80010004 && t.npc == 0x7FFF0004 && t.ds == some ⟨0x80010000, true, 0x7FFF0004⟩) := by decide
theorem test_blez : gives (.blez 4 16) (start 0 0) (fun t => t.pc == 0x80010004 && t.npc == 0x80010044 && t.ds == some ⟨0x80010000, true, 0x80010044⟩) := by decide
theorem test_blez_positive : gives (.blez 4 16) (start 1 0) (fun t => t.pc == 0x80010004 && t.npc == 0x80010008 && t.ds == some ⟨0x80010000, false, 0x80010044⟩) := by decide
theorem test_bgtz : gives (.bgtz 4 16) (start 1 0) (fun t => t.pc == 0x80010004 && t.npc == 0x80010044 && t.ds == some ⟨0x80010000, true, 0x80010044⟩) := by decide
theorem test_bgtz_zero : gives (.bgtz 4 16) (start 0 0) (fun t => t.pc == 0x80010004 && t.npc == 0x80010008 && t.ds == some ⟨0x80010000, false, 0x80010044⟩) := by decide
theorem test_bltz : gives (.bltz 4 16) (start 0x80000000 0) (fun t => t.pc == 0x80010004 && t.npc == 0x80010044 && t.ds == some ⟨0x80010000, true, 0x80010044⟩) := by decide
theorem test_bgez : gives (.bgez 4 16) (start 0 0) (fun t => t.pc == 0x80010004 && t.npc == 0x80010044 && t.ds == some ⟨0x80010000, true, 0x80010044⟩) := by decide
theorem test_bltzal_not_taken : gives (.bltzal 4 16) (start 0 0) (fun t => t.pc == 0x80010004 && t.npc == 0x80010008 && t.ds == some ⟨0x80010000, false, 0x80010044⟩ && t.x 31 == 0x80010008) := by decide
theorem test_bgezal : gives (.bgezal 4 16) (start 0 0) (fun t => t.pc == 0x80010004 && t.npc == 0x80010044 && t.ds == some ⟨0x80010000, true, 0x80010044⟩ && t.x 31 == 0x80010008) := by decide
theorem test_branch_in_slot : faults (.j 0x400) (inSlot (start 0 0)) .branchInDelaySlot := by decide

/-! ### SYSCALL, BREAK, coprocessors (2.8, 2.9) -/

theorem test_syscall_in_slot : gives (.syscall 0) (inSlot (start 0 0)) (fun t => t.epc == 0x8000FFFC && t.cause.bd && t.cause.bt && t.tar == 0x80020000 && t.pc == 0x80000080) := by decide
theorem test_syscall_user_bev : gives (.syscall 0) ({ user 0 0 with sr := { State.reset.sr with kuc := true, iec := true, kup := true, iep := true } }) (fun t => t.sr.toWord == 0x0040003C && t.pc == 0xBFC00180 && t.cause.excCode == 8) := by decide
theorem test_break : gives (.brk 7) (start 0 0) (fun t => t.cause.excCode == 9 && t.epc == 0x80010000) := by decide
theorem test_bc1t : gives (.bc1t 4) ({ start 0 0 with sr := { State.reset.sr with bev := false, cu := 2 }, env := [{ Inputs.quiet with cpc := 2 }] }) (fun t => t.ds == some ⟨0x80010000, true, 0x80010014⟩) := by decide
theorem test_bc3f : gives (.bc3f 0xFFFF) ({ start 0 0 with sr := { State.reset.sr with bev := false, cu := 8 }, env := [{ Inputs.quiet with cpc := 8 }] }) (fun t => t.ds == some ⟨0x80010000, false, 0x80010000⟩) := by decide
theorem test_bc0t_unusable_in_kernel : gives (.bc0t 4) (start 0 0) (fun t => t.cause.excCode == 11 && t.cause.ce == 0) := by decide
/-- R83 step 4, R196: the usability test comes before the stop of a branch in a delay slot. -/
theorem test_bc1t_unusable_in_slot : gives (.bc1t 4) (inSlot (start 0 0)) (fun t => t.cause.excCode == 11 && t.cause.ce == 1 && t.cause.bd) := by decide
theorem test_mfc2_unusable : gives (.mfc2 8 0) (start 0 0) (fun t => t.cause.excCode == 11 && t.cause.ce == 2) := by decide
theorem test_mfc2_usable : refuses (.mfc2 8 0) ({ start 0 0 with sr := { State.reset.sr with bev := false, cu := 4 }, env := [{ Inputs.quiet with cpc := 0 }] }) (.unimplementedCoprocessor 2) := by decide
theorem test_cfc0_kernel : refuses (.cfc0 8 0) (start 0 0) (.unimplementedCoprocessor 0) := by decide
theorem test_lwc0 : refuses (.lwc0 8 0 4) (start 0 0) .undefinedCoprocessor0Transfer := by decide

/-! ### CP0 (2.10) -/

theorem test_mfc0_prid : gives (.mfc0 8 15) (start 0 0) (fun t => t.ld == some ⟨8, 0x00000A0A⟩) := by decide
theorem test_mfc0_cause_pins : gives (.mfc0 8 13) ({ start 0 0 with env := [{ Inputs.quiet with int := 0b000101 }] }) (fun t => t.ld == some ⟨8, 0x00001400⟩) := by decide
theorem test_mtc0_sr : gives (.mtc0 4 12) (start 0xFFFFFFFF 0) (fun t => t.sr.toWord == 0xF045FF3F) := by decide
theorem test_mtc0_dcic : gives (.mtc0 4 7) (start 0xFFFFFFFF 0) (fun t => t.dcic.toWord == 0xFF80003F) := by decide
theorem test_mfc0_tlb_register : gives (.mfc0 8 10) (start 0 0) (fun t => t.cause.excCode == 10) := by decide
theorem test_rfe : gives (.rfe) ({ start 0 0 with sr := (start 0 0).sr.written 0x1040FF28 }) (fun t => t.sr.toWord == 0x1040FF2A) := by decide
theorem test_rfe_user : gives (.rfe) (user 0 0) (fun t => t.cause.excCode == 10 && t.sr.toWord == 8) := by decide
theorem test_tlbp : gives (.tlbp) (start 0 0) (fun t => t.cause.excCode == 10) := by decide

/-! ### Steps (2.7, 2.11 to 2.13) -/

theorem test_step_add : stepGives (placing (start 1 2) 0x00851020) (fun t => t.x 2 == 3 && t.pc == 0x80010004 && t.lastpc == some 0x80010000) := by decide
theorem test_step_unlisted : stepFaults (placing (start 0 0) 0x44200000) (.unlistedEncoding 0x44200000) := by decide
theorem test_step_reserved : stepGives (placing (start 0 0) 0x50000000) (fun t => t.cause.excCode == 10) := by decide
theorem test_step_interrupt : stepGives { start 0 0 with sr := (start 0 0).sr.written 0x401, env := [{ Inputs.quiet with int := 1 }] } (fun t => t.cause.excCode == 0 && t.sr.toWord == 0x404 && t.epc == 0x80010000) := by decide
theorem test_step_interrupt_masked : stepGives { start 0 0 with sr := (start 0 0).sr.written 0xFF01, env := [{ Inputs.quiet with int := 32, intMask := true }] } (fun t => t.pc == 0x80010004) := by decide
theorem test_step_syscall_before_interrupt : stepGives (placing { start 0 0 with sr := (start 0 0).sr.written 0x401, env := [{ Inputs.quiet with int := 1 }] } 0x0000000C) (fun t => t.cause.excCode == 8) := by decide
theorem test_step_misaligned_fetch : stepGives { start 0 0 with pc := 0x80010002, npc := 0x80010006 } (fun t => t.badA == 0x80010002 && t.cause.excCode == 4) := by decide
theorem test_step_pc_breakpoint : stepGives { start 0 0 with dcic := .ofWord 0xA1800000, bpc := 0x80019999, bpcm := 0xFFFF0000 } (fun t => t.pc == 0x80000040 && t.dcic.toWord == 0xA1800003 && t.cause.excCode == 9) := by decide
/-- R315: a Debug trap at a taken branch, with MTHI at pc + 8, which is not in the stream, keeps HI; so does CpU of a BC0T
whose condition holds. -/
theorem test_step_debug_keeps_hi : stepGives { placing (start 7 7) 0x10850008 with mem := layCells Params.default (placing (start 7 7) 0x10850008).mem 0x80010008 [0, 0x80, 0, 0x11], hi := 5, dcic := .ofWord 0xA1800000, bpcm := 0 } (fun t => t.hi == 5 && t.pc == 0x80000040) := by decide
theorem test_step_cpu_keeps_hi : stepGives { placing (start 7 7) 0x41010008 with mem := layCells Params.default (placing (start 7 7) 0x41010008).mem 0x80010008 [0, 0x80, 0, 0x11], hi := 5, env := [{ Inputs.quiet with cpc := 1 }] } (fun t => t.hi == 5 && t.cause.excCode == 11) := by decide
/-- R315: an interrupt in place of an ADD that a device delivered keeps HI; the word behind an RFE that leaves user mode is fetched in
kernel mode, and behind one that is denied in user mode, where the address is none (a MULT at 0x80000000). -/
theorem test_interrupt_at_device_keeps_hi : (match runInstr { withRegion .device false (start 0 0) with pc := 0x80001FFC, npc := 0x80002000, hi := 5, sr := (start 0 0).sr.written 0x401, env := [{ Inputs.quiet with int := 1 }] } (.add 2 4 5) with | .next t => t.hi == 5 && t.cause.excCode == 0 | .fault _ => false | .refused _ => false) = true := by decide
theorem test_stream_rfe : ∀ cu0 : Bool, State.streamWrites { user 0 0 with pc := 0x7FFFFFFC, npc := 0x80000000, sr := (start 0 0).sr.written (if cu0 then 0x10000002 else 2), mem := layCells Params.default (layCells Params.default [] 0x7FFFFFFC [0x42, 0, 0, 0x10]) 0x80000000 [0, 0x85, 0, 0x18] } = cu0 := by decide
/-- R315: the word behind a store that runs is what it stored (a MULT, at a kseg1 address); a store that is misaligned, isolated
or made to read-only memory leaves the word there (a NOP). -/
theorem test_stream_store : (List.map (fun s : State => (placing { s with pc := 0xA0001000, npc := 0xA0001004 } 0xAC850000).streamWrites)
    [start 0xA0001004 0x00850018, start 0xA0001005 0x00850018,
      { start 0xA0001004 0x00850018 with sr := (start 0 0).sr.written 0x10000 },
      withRegion .rom false (start 0xA0001004 0x00850018)]) = [true, false, false, false] := by decide
theorem test_step_data_breakpoint : stepGives (placing { withData (start 0x80001000 0) with dcic := .ofWord 0xA6800000, bda := 0x80001004 } 0x8C890004) (fun t => t.pc == 0x80000040 && t.dcic.toWord == 0xA680000D) := by decide
theorem test_step_reset : stepGives { start 7 0 with resetHeld := some .warm, epc := 5 } (fun t => t.pc == 0xBFC00000 && t.epc == 5 && t.sr.toWord == 0x00400000) := by decide
theorem test_withFetchWord : stepGives (State.reset.withFetchWord 32 0x3C021234) (fun t => t.x 2 == 0x12340000 && t.pc == 0xBFC00004) := by decide

/-! ### Witnesses: the hypotheses of each statement are met, each clause at boundary values -/

theorem gives_next {i : Instr} {s : State} {p : State → Bool} (h : gives i s p = true) : ∃ t, exec i s = .next t ∧ p t = true := by
  unfold gives at h
  split at h
  · exact ⟨_, ‹_›, h⟩
  · cases h
  · cases h

theorem stepGives_next {s : State} {p : State → Bool} (h : stepGives s p = true) : ∃ t, step s = .next t ∧ p t = true := by
  unfold stepGives at h
  split at h
  · exact ⟨_, ‹_›, h⟩
  · cases h
  · cases h

theorem start_inv (x4 x5 : Word) : (start x4 x5).Inv :=
  ⟨rfl, List.Pairwise.nil, fun _ h => (by cases h), List.Pairwise.nil, fun _ h => (by cases h), by simp [start, State.reset], fun _ h => (by cases h), fun _ => rfl, fun _ h => (by cases h)⟩

theorem witness_DecodeOfEncode : (Instr.add 31 31 31).wellFormed = true ∧ (Instr.cop0 0x1FFFFFF).wellFormed = true := by
  decide

theorem witness_EncodeOfDecode : decodeWord 0xFFFFFFFF ≠ .unlisted ∧ decodeWord 0x42000010 = .instr .rfe := by decide

/-- SYSCALL ends at decode, with an interrupt pending; ADD runs with none. -/
theorem witness_StepRunsDecodedInstruction :
    (∃ s : State, s.FetchesWord ∧ decodeWord (s.codeAt s.pc) = .instr (.add 2 4 5) ∧ s.storeErrorDue = false ∧
      s.interrupted = false) ∧
    ∃ s : State, s.FetchesWord ∧ decodeWord (s.codeAt s.pc) = .instr (.syscall 0) ∧
      decodeStops (.syscall 0) s.fetched = true ∧ s.interrupted = true :=
  ⟨⟨placing (start 1 2) 0x00851020,
      ⟨⟨by decide, by decide, by decide, by decide⟩, by decide, by decide, by decide⟩, by decide, by decide, by decide⟩,
    ⟨placing { start 0 0 with sr := (start 0 0).sr.written 0x401, env := [{ Inputs.quiet with int := 1 }] } 0x0000000C,
      ⟨⟨by decide, by decide, by decide, by decide⟩, by decide, by decide, by decide⟩, by decide, by decide, by decide⟩⟩

theorem witness_StepOnOtherWords :
    ∀ w ∈ [(0x50000000, Decoded.reservedMajor), (0x00000001, .reservedMinor), (0x44200000, .unlisted)],
      (placing (start 0 0) w.1).FetchesWord ∧ decodeWord ((placing (start 0 0) w.1).codeAt 0x80010000) = w.2 := by
  intro w hw
  simp only [List.mem_cons, List.not_mem_nil, or_false] at hw
  rcases hw with rfl | rfl | rfl <;>
    exact ⟨⟨⟨by decide, by decide, by decide, by decide⟩, by decide, by decide, by decide⟩, by decide⟩

/-- An entry from user mode with interrupts enabled: the RFE after it gives the two bits back. -/
theorem witness_StatusStack :
    ∃ s t u : State, t = s.enterException .sys false ∧ s.sr.toWord &&& 0xF = 3 ∧ t.sr.toWord &&& 0x3F = 12 ∧
      exec .rfe t = .next u ∧ u.sr.toWord &&& 0xF = 3 :=
  ⟨{ start 0 0 with sr := (start 0 0).sr.written 3 }, _, _, rfl, by decide, by decide, rfl, by decide⟩

/-- A misaligned address at each lane, the first kernel address in user mode, a bus error of the input and one of the platform,
code that was stored to at its first and its last byte, and such code at the first and the last word of kseg1. -/
theorem witness_FetchErrors :
    (∀ k ∈ [1, 2, 3], ({ start 0 0 with pc := BitVec.ofNat 32 k } : State).ReachesFetch ∧
      (BitVec.ofNat 32 k : Word).toNat % 4 ≠ 0) ∧
    ({ user 0 0 with pc := 0x80000000 } : State).ReachesFetch ∧
    (∃ s : State, s.ReachesFetch ∧ s.pc = 0x7FFFFFFC ∧ s.sr.kuc = true ∧ s.FetchBusError) ∧
    (∃ s : State, s.ReachesFetch ∧ s.pc = 0x80001FFC ∧ s.FetchBusError ∧ s.now.berrFetch = false) ∧
    (∀ j ∈ [0, 3], ({ start 0 0 with storedTo := [0x10000 + j] } : State).ReachesFetch ∧
      ¬(start 0 0).FetchBusError ∧ (start 0 0).cellOf ((start 0 0).pc + BitVec.ofNat 32 j) = 0x10000 + j) ∧
    ∀ va ∈ ([0xA0000000, 0xBFFFFFFC] : List Word),
      ({ start 0 0 with pc := va, storedTo := [(va &&& 0x1FFFFFFF).toNat] } : State).ReachesFetch ∧
        (∀ j < 4, ((start 0 0).regionOf (va + BitVec.ofNat 32 j)).place ≠ .device ∧
          (start 0 0).cellOf (va + BitVec.ofNat 32 j) ∉ (start 0 0).failed) ∧
        decodeWord ((start 0 0).wordAt va) = .instr (.sll 0 0 0) ∧ (start 0 0).interrupted = false := by
  refine ⟨?_, ⟨by decide, by decide, by decide, by decide⟩,
    ⟨{ user 0 0 with pc := 0x7FFFFFFC, env := [{ Inputs.quiet with berrFetch := true }] },
      ⟨by decide, by decide, by decide, by decide⟩, rfl, rfl, .inl rfl⟩,
    ⟨withRegion .device true { start 0 0 with pc := 0x80001FFC }, ⟨by decide, by decide, by decide, by decide⟩, rfl,
      .inr ⟨3, by decide, by decide⟩, rfl⟩, ?_, ?_⟩
  · intro k hk
    simp only [List.mem_cons, List.not_mem_nil, or_false] at hk
    rcases hk with rfl | rfl | rfl <;> exact ⟨⟨by decide, by decide, by decide, by decide⟩, by decide⟩
  · intro j hj
    simp only [List.mem_cons, List.not_mem_nil, or_false] at hj
    rcases hj with rfl | rfl <;> exact ⟨⟨by decide, by decide, by decide, by decide⟩, by decide, by decide⟩
  · intro va hj
    simp only [List.mem_cons, List.not_mem_nil, or_false] at hj
    rcases hj with rfl | rfl <;>
      exact ⟨⟨by decide, by decide, by decide, by decide⟩, by decide, by decide, by decide⟩

/-- Each of the two events; and, for the clause on decode, the ten default codes differ in a state with no entry before it, in
which BREAK ends at decode. -/
theorem witness_AsynchronousEvents :
    (∃ s : State, s.FetchesWord ∧ decodeWord (s.codeAt s.pc) = .instr (.sll 0 0 0) ∧
      decodeStops (.sll 0 0 0) s.fetched = false ∧ s.storeError = true ∧ s.now.deliverStoreError = true) ∧
    (∃ s : State, s.FetchesWord ∧ decodeWord (s.codeAt s.pc) = .instr (.sll 0 0 0) ∧
      decodeStops (.sll 0 0 0) s.fetched = false ∧ s.storeError = false ∧ s.interrupted = true) ∧
    (start 0 0).entered = false ∧ ExcCodesDiffer (start 0 0).params.excCode ∧
    (∃ t e altered, DecodeStage e ∧ exec (.brk 0) (start 0 0) = .next t ∧ Entered (start 0 0) t e altered) :=
  ⟨⟨{ start 0 0 with storeError := true, env := [{ Inputs.quiet with deliverStoreError := true }] },
      ⟨⟨by decide, by decide, by decide, by decide⟩, by decide, by decide, by decide⟩, by decide, by decide, by decide,
      by decide⟩,
    ⟨{ start 0 0 with sr := (start 0 0).sr.written 0x401, env := [{ Inputs.quiet with int := 1 }] },
      ⟨⟨by decide, by decide, by decide, by decide⟩, by decide, by decide, by decide⟩, by decide, by decide, by decide,
      by decide⟩, rfl, by unfold ExcCodesDiffer; decide, _, .bp, _, trivial, rfl, enterException_spec _ _ _⟩

/-- The trace condition after an entry, without one, and the program-counter breakpoint right after an entry; a word that is known at
`pc`, one that is no instruction's, and one that a device and one that a failed store leaves open; an instruction that ends
normally (an RFE into the other mode, and a store of a MULT behind itself), one that raises an exception, and a branch that does,
on an unusable unit; and an address at which no instruction is. -/
theorem witness_FetchBreakpoints :
    (∃ s : State, s.now.reset = none ∧ s.resetHeld = none ∧ s.traceHit = true ∧ s.entered = true) ∧
    (∃ s : State, s.now.reset = none ∧ s.resetHeld = none ∧ s.traceHit = true ∧ s.entered = false ∧ s.dcic.tr = true) ∧
    (∃ s : State, s.now.reset = none ∧ s.resetHeld = none ∧ s.pcHit = true ∧ s.traceHit = false ∧ s.entered = true ∧
      s.dcic.tr = true) ∧
    ¬(user 0 0).MayFetch 0x80000000 ∧ (user 0 0).MayFetch 0x7FFFFFFC ∧
    (∃ s t : State, s.entered = false ∧ ¬s.FetchBusError ∧ s.InstrAt s.pc (.j 0x400) ∧ exec (.j 0x400) s = .next t ∧
      t.entered = false) ∧
    (∃ s : State, s.pc = 0x80001000 ∧ s.Delivers s.pc ∧ ¬s.FetchBusError ∧ s.UnknownWord s.pc) ∧
    (∃ s : State, s.pc = 0xA0001000 ∧ s.Delivers s.pc ∧ ¬s.FetchBusError ∧ ¬s.StoredCode s.pc ∧ s.UnknownWord s.pc) ∧
    (∃ s : State, s.MayFetch s.pc ∧ ¬s.FetchBusError ∧ ¬s.UnknownWord s.pc ∧ ∀ i, decodeWord (s.wordAt s.pc) ≠ .instr i) ∧
    (∃ s t : State, s.entered = false ∧ s.InstrAt s.pc .rfe ∧ exec .rfe { s with env := [] } = .next t ∧ t.entered = false ∧
      s.sr.kuc = false ∧ t.sr.kuc = true) ∧
    (∃ s t : State, s.entered = false ∧ s.InstrAt s.pc (.sw 5 0 4) ∧ exec (.sw 5 0 4) { s with env := [] } = .next t ∧
      t.entered = false ∧ s.mulDivAt s.npc = false ∧ t.mulDivAt s.npc = true) ∧
    (∃ s : State, s.entered = false ∧ s.InstrAt s.pc (.syscall 0) ∧
      ∀ t, exec (.syscall 0) { s with env := [] } = .next t → t.entered = true) ∧
    (∃ s : State, s.entered = false ∧ IsBranch (.bc1t 4) ∧ ∀ t, exec (.bc1t 4) s = .next t → t.entered = true) ∧
    ∃ s : State, s.entered = false ∧ ∀ i, ¬s.InstrAt s.pc i :=
  ⟨⟨{ start 0 0 with dcic := .ofWord 0xB0800000, lastpc := some 0, entered := true }, by decide⟩,
    ⟨{ start 0 0 with dcic := .ofWord 0xB0800000, lastpc := some 0 }, by decide⟩,
    ⟨{ start 0 0 with dcic := .ofWord 0xA1800000, bpcm := 0, entered := true }, by decide⟩,
    by decide, by decide,
    ⟨placing (start 0 0) 0x08000400, _, rfl, by decide, by decide, rfl, rfl⟩,
    ⟨withRegion .device false { start 0 0 with pc := 0x80001000 }, rfl, by decide, by decide, by decide⟩,
    ⟨{ start 0 0 with pc := 0xA0001000, failed := [0x1003] }, rfl, by decide, by decide, by decide, by decide⟩,
    ⟨placing (start 0 0) 0x50000000, by decide, by decide, by decide, fun i h => absurd h (by
      rw [show decodeWord ((placing (start 0 0) 0x50000000).wordAt (placing (start 0 0) 0x50000000).pc) = .reservedMajor by decide]
      exact nofun)⟩,
    ⟨placing { start 0 0 with sr := (start 0 0).sr.written 8 } 0x42000010, _, rfl, by decide, rfl, rfl, rfl, rfl⟩,
    ⟨placing { start 0xA0001004 0x00850018 with pc := 0xA0001000, npc := 0xA0001004 } 0xAC850000, _, rfl, by decide, rfl, rfl,
      by decide, by decide⟩,
    ⟨placing (start 0 0) 0x0000000C, rfl, by decide, fun t h => by cases h; rfl⟩,
    ⟨start 0 0, rfl, ⟨0, 0, 0, 4, 0, by simp⟩, fun t h => by cases h; rfl⟩,
    ⟨{ start 0 0 with pc := 0x80010002 }, rfl, fun i h => absurd h.1 (by decide)⟩⟩

theorem witness_ResetEvent :
    ∀ k : ResetKind, ({ start 0 0 with resetHeld := some k } : State).now.reset = none ∧
      ({ start 0 0 with resetHeld := some k } : State).resetHeld = some k := fun _ => ⟨rfl, rfl⟩

theorem witness_ResetHolds :
    ∀ k : ResetKind, ({ start 0 0 with env := [{ Inputs.quiet with reset := some k }] } : State).now.reset = some k :=
  fun _ => rfl

theorem witness_StepKeepsInvariant : ∃ s t : State, s.Inv ∧ step s = .next t ∧ t.ds ≠ none := by
  have h : stepGives (placing (start 1 2) 0x08000400) (fun t => t.ds.isSome) = true := by decide
  obtain ⟨t, h1, h2⟩ := stepGives_next h
  exact ⟨_, t, ⟨by decide, by decide, by decide, by decide, by decide, by decide, fun _ h => (by cases h), fun _ => rfl,
    fun _ h => (by cases h)⟩, h1,
    fun e => by rw [e] at h2; cases h2⟩

/-- A user step that stays in user mode, and one that ends at a vector. -/
theorem witness_UserModeConfined :
    ∀ w ∈ ([0x00000000, 0x0000000C] : List Word), ∃ s t : State, s.sr.kuc = true ∧ s.sr.usable 0 = false ∧ s.now.reset = none ∧
      s.resetHeld = none ∧ step s = .next t ∧ t.entered = (w == 0x0000000C) := by
  intro w hw
  have h : stepGives (placing (user 1 2) w) (fun t => t.entered == (w == 0x0000000C)) = true := by
    simp only [List.mem_cons, List.not_mem_nil, or_false] at hw
    rcases hw with rfl | rfl <;> decide
  obtain ⟨t, h1, h2⟩ := stepGives_next h
  exact ⟨placing (user 1 2) w, t, rfl, show (user 1 2).sr.usable 0 = false by decide, rfl, rfl, h1, by simpa using h2⟩

/-- With the region 0 to 0x7FFFFFFF mapped to itself no user address names the cell 0xFFFFFFFF; the step is an SB to cell 4. -/
theorem witness_UserStoresConfined :
    ∃ s t : State, s.sr.kuc = true ∧ step s = .next t ∧ t.mem.read 4 = 0x11 ∧
      ∀ va : Word, va.getLsbD 31 = false → s.cellOf va ≠ 0xFFFFFFFF := by
  have h : stepGives (placing (user 4 0x11) 0xA0850000) (fun t => t.mem.read 4 == 0x11) = true := by decide
  obtain ⟨t, h1, h2⟩ := stepGives_next h
  refine ⟨_, t, rfl, h1, by simpa using h2, fun va hv e => ?_⟩
  have hk : inKseg01 va = false := by
    have hv' : va[31] = false := hv
    unfold inKseg01
    rw [beq_eq_false_iff_ne]
    intro h
    have := congrArg (·.getLsbD 1) h
    simp [hv'] at this
  have : va = 0xFFFFFFFF := by
    apply BitVec.eq_of_toNat_eq
    unfold State.cellOf Machine.translate at e
    rw [hk] at e
    exact e
  rw [this] at hv
  exact absurd hv (by decide)

/-- An instruction for each of the three ends. -/
theorem witness_EveryInstructionEnds :
    (∃ t, exec (.add 2 4 5) (start 1 2) = .next t ∧ t.ds = none ∧ t.entered = false) ∧
    (∃ t, exec (.j 0) (start 1 2) = .next t ∧ t.ds ≠ none) ∧
    ∃ t, exec (.add 2 4 5) (start 0x7FFFFFFF 1) = .next t ∧ t.entered = true :=
  ⟨⟨_, rfl, rfl, rfl⟩, ⟨_, rfl, fun e => by cases e⟩, ⟨_, rfl, rfl⟩⟩

theorem witness_OperandReads :
    ({ start 0 0 with ld := some ⟨31, 9⟩ } : State).ld = some ⟨31, 9⟩ ∧
    ∀ v, ({ start 0 0 with ld := some ⟨31, 9⟩ } : State).ld ≠ some ⟨1, v⟩ :=
  ⟨rfl, fun v h => by cases h⟩

/-- The ends of kseg0 and kseg1, and the addresses just outside; the ends of a region of each kind and the addresses just
outside. -/
theorem witness_AddressMapping :
    (∀ a ∈ [0xFFF, 0x1000, 0x2000], ({ withRegion .rom true (start 0 0) with failed := [0xFFF, 0x1000, 0x2000] } : State).cellOf
      (BitVec.ofNat 32 a) ∈ [0xFFF, 0x1000, 0x2000] ∧
      ((withRegion .rom true (start 0 0)).regionOf (BitVec.ofNat 32 a)).place ≠ .device) ∧
    (∀ p ∈ [Place.ram, .rom, .device], ∀ va ∈ ([0x80001000, 0x80001FFF] : List Word),
      ((withRegion p true (start 0 0)).regionOf va).place = p) ∧
    (∀ va ∈ ([0x80000FFF, 0x80002000] : List Word),
      ((withRegion .device true (start 0 0)).regionOf va).place = .ram) ∧
    (∀ va ∈ ([0x80000000, 0x9FFFFFFF, 0xA0000000, 0xBFFFFFFF] : List Word),
      0x80000000 ≤ va.toNat ∧ va.toNat ≤ 0xBFFFFFFF) ∧
    ∀ va ∈ ([0, 0x7FFFFFFF, 0xC0000000, 0xFFFFFFFF] : List Word), ¬(0x80000000 ≤ va.toNat ∧ va.toNat ≤ 0xBFFFFFFF) := by
  simp only [List.forall_mem_cons, List.not_mem_nil, false_imp_iff, implies_true, and_true]
  decide +kernel

/-- Sums and differences at the two ends of the signed range. -/
theorem witness_SignedArithmetic :
    ((start 0x7FFFFFFE 1).rs 4).toInt + ((start 0x7FFFFFFE 1).rt 5).toInt = 2 ^ 31 - 1 ∧
    ((start 0x80000001 0).rs 4).toInt + (0xFFFF : BitVec 16).toInt = -2 ^ 31 ∧
    ((start 0xFFFFFFFF 0x7FFFFFFF).rs 4).toInt - ((start 0xFFFFFFFF 0x7FFFFFFF).rt 5).toInt = -2 ^ 31 := by decide +kernel

theorem witness_OverflowTraps :
    ((start 0x7FFFFFFF 1).rs 4).toInt + ((start 0x7FFFFFFF 1).rt 5).toInt = 2 ^ 31 ∧
    ((start 0x80000000 0).rs 4).toInt + (0xFFFF : BitVec 16).toInt = -2 ^ 31 - 1 ∧
    ((start 0 0x80000000).rs 4).toInt - ((start 0 0x80000000).rt 5).toInt = 2 ^ 31 := by decide +kernel

theorem witness_Divide :
    ∀ p ∈ ([(0x80000000, 1), (0x80000001, 0xFFFFFFFF), (7, 0x80000000)] : List (Word × Word)),
      ((start p.1 p.2).rt 5).toInt ≠ 0 ∧
        ¬(((start p.1 p.2).rs 4).toInt = -2 ^ 31 ∧ ((start p.1 p.2).rt 5).toInt = -1) ∧
        ((start p.1 p.2).rt 5).toNat ≠ 0 := by
  simp only [List.forall_mem_cons, List.not_mem_nil, false_imp_iff, implies_true, and_true]
  decide +kernel

theorem witness_DivideSpecial :
    ((start 7 0).rt 5).toInt = 0 ∧ ((start 7 0).rt 5).toNat = 0 ∧
    ((start 0x80000000 0xFFFFFFFF).rs 4).toInt = -2 ^ 31 ∧ ((start 0x80000000 0xFFFFFFFF).rt 5).toInt = -1 := by decide +kernel

/-- The hypothesis of Jumps, EqualityBranches, SignBranches and LinkBranches. -/
theorem witness_Jumps : (start 0 0).ds = none := rfl
theorem witness_EqualityBranches : (start 0 0).ds = none := rfl
theorem witness_SignBranches : (start 0 0).ds = none := rfl
theorem witness_LinkBranches : (start 0 0).ds = none := rfl

/-- The status register with the four Cu bits set. -/
theorem witness_CoprocessorBranches :
    ∃ s : State, s.ds = none ∧ ∀ z : BitVec 2, s.sr.cu.getLsbD z.toNat = true :=
  ⟨{ start 0 0 with sr := { State.reset.sr with cu := 0xF } }, rfl, by decide⟩

/-- In a delay slot with the four Cu bits set. -/
theorem witness_BranchInDelaySlot :
    ∃ s : State, s.ds ≠ none ∧ ∀ z : BitVec 2, s.sr.cu.getLsbD z.toNat = true :=
  ⟨inSlot { start 0 0 with sr := { State.reset.sr with cu := 0xF } }, by decide, by decide⟩

theorem witness_DelaySlotThenTarget :
    ∃ (i k : Instr) (s t u : State) (d : DelaySlot), s.Inv ∧ s.ds = none ∧ exec i s = .next t ∧ t.ds = some d ∧
      t.entered = false ∧ exec k t = .next u ∧ u.entered = false :=
  ⟨.j 0x400, .addiu 2 4 1, start 1 2, _, _, _, start_inv 1 2, rfl, rfl, rfl, rfl, rfl, rfl⟩

theorem witness_TlbInstructions : Instr.tlbp ∈ [Instr.tlbr, .tlbwi, .tlbwr, .tlbp] := by decide +kernel

theorem witness_CoprocessorUnusable :
    (∀ z : BitVec 2, (user 0 0).sr.cu.getLsbD z.toNat = false) ∧ (user 0 0).sr.kuc = true := by decide +kernel

theorem witness_CoprocessorStops :
    (∃ s : State, ∀ z : BitVec 2, s.sr.cu.getLsbD z.toNat = true) ∧ (start 0 0).sr.kuc = false :=
  ⟨⟨{ start 0 0 with sr := { State.reset.sr with cu := 0xF } }, by decide⟩, rfl⟩

/-- Kernel mode with Cu0 clear, and user mode with Cu0 set: the hypothesis of Mfc0Reads, of Cp0NumbersNotThere for registers
16 and 31, of the four Mtc0 statements and of ReturnFromException. -/
theorem witness_Mfc0Reads :
    ((start 0 0).sr.kuc = false ∧ (start 0 0).sr.cu.getLsbD 0 = false) ∧
    ∃ s : State, s.sr.kuc = true ∧ s.sr.cu.getLsbD 0 = true :=
  ⟨by decide, ⟨{ user 0 0 with sr := { (user 0 0).sr with cu := 1 } }, by decide⟩⟩

theorem witness_Cp0NumbersNotThere :
    (start 0 0).sr.kuc = false ∧ 16 ≤ (16 : RegIdx).toNat ∧ 16 ≤ (31 : RegIdx).toNat ∧
      (10 : RegIdx) ∈ ([0, 1, 2, 4, 10] : List RegIdx) := by decide +kernel

theorem witness_Mtc0Status : (start 0 0).sr.kuc = false := rfl
theorem witness_Mtc0Cause : (start 0 0).sr.kuc = false := rfl
theorem witness_Mtc0Debug : (start 0 0).sr.kuc = false ∧ (11 : RegIdx) ∈ ([3, 5, 7, 9, 11] : List RegIdx) := by decide +kernel
theorem witness_Mtc0ReadOnlyAndEpc : (start 0 0).sr.kuc = false ∧ (14 : RegIdx) ∈ ([6, 8, 14, 15] : List RegIdx) := by decide +kernel
theorem witness_ReturnFromException : (start 0 0).sr.kuc = false := rfl
theorem witness_PrivilegedInstructions : (user 0 0).sr.kuc = true ∧ (user 0 0).sr.cu.getLsbD 0 = false := by decide +kernel

/-- Addresses that the loads of each width may use: any lane for bytes, the last halfword and the last word of kuseg, and the
last word of the space in kernel mode. -/
theorem witness_Loads :
    (∀ va ∈ ([0x7FFFFFFC, 0x7FFFFFFD, 0x7FFFFFFE, 0x7FFFFFFF] : List Word),
      (user va 0).address 4 0 = va ∧ (user va 0).accessible va true false ∧ ¬(user va 0).BusError false va 1) ∧
    (user 0x7FFFFFFE 0).accessible 0x7FFFFFFE (decide ((0x7FFFFFFE : Word).toNat % 2 = 0)) false ∧
    ¬(user 0x7FFFFFFE 0).BusError false 0x7FFFFFFE 2 ∧
    (start 0xFFFFFFFC 0).accessible 0xFFFFFFFC (decide ((0xFFFFFFFC : Word).toNat % 4 = 0)) false ∧
    ¬(start 0xFFFFFFFC 0).BusError false 0xFFFFFFFC 4 := by
  unfold State.accessible
  simp only [List.forall_mem_cons, List.not_mem_nil, false_imp_iff, implies_true, and_true]
  decide +kernel

theorem witness_UnalignedLoads :
    ∀ va ∈ ([0x80001000, 0x80001001, 0x80001002, 0x80001003] : List Word),
      (start va 0).address 4 0 = va ∧ (start va 0).accessible va true false ∧ (start va 0).params.bigEndian = true ∧
        ¬(start va 0).BusError false va (4 - va.toNat % 4) ∧
        ¬(start va 0).BusError false 0x80001000 (va.toNat % 4 + 1) := by
  unfold State.accessible
  simp only [List.forall_mem_cons, List.not_mem_nil, false_imp_iff, implies_true, and_true]
  decide +kernel

theorem witness_Stores :
    (∀ va ∈ ([0x7FFFFFFC, 0x7FFFFFFD, 0x7FFFFFFE, 0x7FFFFFFF] : List Word),
      (user va 0).address 4 0 = va ∧ (user va 0).accessible va true true) ∧
    (user 0x7FFFFFFE 0).accessible 0x7FFFFFFE (decide ((0x7FFFFFFE : Word).toNat % 2 = 0)) true ∧
    (user 0 0).cellOf 0x7FFFFFFE ≠ (user 0 0).cellOf (0x7FFFFFFE + 1) ∧
    (start 0xFFFFFFFC 0).accessible 0xFFFFFFFC (decide ((0xFFFFFFFC : Word).toNat % 4 = 0)) true ∧
    (start 0 0).separateBytes 0xFFFFFFFC ∧ ¬(start 0 0).BusError true 0xFFFFFFFC 4 ∧ (start 0 0).inRam 0xFFFFFFFC 4 ∧
    ¬(user 0 0).BusError true 0x7FFFFFFE 2 ∧ (user 0 0).inRam 0x7FFFFFFE 2 := by
  unfold State.accessible State.separateBytes State.BusError State.inRam
  simp only [List.forall_mem_cons, List.not_mem_nil, false_imp_iff, implies_true, and_true]
  refine ⟨?_, ?_, ?_, ?_, ?_, ?_, ?_, ?_, ?_⟩ <;> decide +kernel

theorem witness_UnalignedStores :
    (∀ va ∈ ([0x80001000, 0x80001001, 0x80001002, 0x80001003] : List Word),
      (start va 0).address 4 0 = va ∧ (start va 0).accessible va true true ∧
        ¬(start va 0).BusError true va (4 - va.toNat % 4) ∧ ¬(start va 0).BusError true 0x80001000 (va.toNat % 4 + 1)) ∧
    (start 0 0).separateBytes 0x80001000 ∧ (start 0 0).inRam 0x80001000 4 := by
  unfold State.accessible State.separateBytes State.BusError State.inRam
  simp only [List.forall_mem_cons, List.not_mem_nil, false_imp_iff, implies_true, and_true]
  refine ⟨?_, ?_, ?_⟩ <;> decide +kernel

/-- The first address that user mode may not use, and the misaligned lanes. -/
theorem witness_AddressErrors :
    ((user 0x80000000 0).address 4 0 = 0x80000000 ∧ (user 0 0).sr.kuc = true ∧ (0x80000000 : Word).getLsbD 31 = true) ∧
    (∀ va ∈ ([1, 2, 3] : List Word), (start va 0).address 4 0 = va ∧ va.toNat % 4 ≠ 0) ∧
    ∀ va ∈ ([1, 3] : List Word), va.toNat % 2 ≠ 0 := by
  simp only [List.forall_mem_cons, List.not_mem_nil, false_imp_iff, implies_true, and_true]
  decide +kernel

/-- Isolated cache; a data breakpoint that traps; a bus error of the input with the breakpoint not trapping; one of the platform
at the last byte only. -/
theorem witness_DataAccessEnds :
    (∃ s : State, s.sr.isC = true) ∧
    (∃ s : State, s.sr.isC = false ∧ s.daHit 4 true = true ∧ s.daHit 4 false = true ∧ s.dcic.tr = true ∧ s.address 4 0 = 4) ∧
    (∃ s : State, s.sr.isC = false ∧ s.daHit 4 false = true ∧ s.dcic.tr = false ∧ s.now.berrData = true ∧
      s.address 4 0 = 4) ∧
    ∃ s : State, s.sr.isC = false ∧ s.daHit 0x80000FFC false = false ∧ s.address 4 0 = 0x80000FFC ∧
      s.BusError false 0x80000FFC 4 ∧ ¬s.BusError false 0x80000FFC 3 :=
  ⟨⟨{ start 4 0 with sr := { State.reset.sr with isC := true } }, rfl⟩,
    ⟨{ start 4 0 with dcic := .ofWord 0xAE800000, bdam := 0 }, by decide⟩,
    ⟨{ start 4 0 with dcic := .ofWord 0x2E800000, bdam := 0, env := [{ Inputs.quiet with berrData := true }] }, by decide⟩,
    ⟨{ start 0x80000FFC 0 with params :=
        { Params.default with
          platform := [{ first := 0xFFF, last := 0xFFF, place := .rom, berrRead := true, berrWrite := true }] } },
      by decide, by decide, by decide, by decide, by decide⟩⟩

end Sys2Proof.Tests
end

section
/-! SUPPORT. Proofs of the statements about the state: the invariant, what a register operand reads, how an instruction and a step
end, the CP0 registers as words, and MTC0. -/

namespace Sys2Proof.Machine

/-! ### What the invariant reads of a state -/

/-- The fields that `State.Inv` speaks of are equal in two states. -/
structure SameTracked (s t : State) : Prop where
  mem : t.mem = s.mem
  storedTo : t.storedTo = s.storedTo
  failed : t.failed = s.failed
  gpr : t.gpr = s.gpr
  ld : t.ld = s.ld
  pc : t.pc = s.pc
  npc : t.npc = s.npc
  ds : t.ds = s.ds

/-- The invariant goes over to a state that agrees in the fields it speaks of. -/
theorem SameTracked.inv {s t : State} (e : SameTracked s t) (h : s.Inv) : t.Inv where
  memory := e.mem ▸ h.memory
  record := e.storedTo ▸ h.record
  recordBound := e.storedTo ▸ h.recordBound
  failed := e.failed ▸ h.failed
  failedBound := e.failed ▸ h.failedBound
  zero := by rw [e.gpr]; exact h.zero
  load := e.ld ▸ h.load
  sequential := by rw [e.ds, e.npc, e.pc]; exact h.sequential
  slot := by rw [e.ds, e.npc, e.pc]; exact h.slot

/-! ### Updates that leave those fields -/

theorem sameTracked_posted (s : State) : SameTracked s s.posted := ⟨rfl, rfl, rfl, rfl, rfl, rfl, rfl, rfl⟩

theorem sameTracked_fetched (s : State) : SameTracked s s.fetched := ⟨rfl, rfl, rfl, rfl, rfl, rfl, rfl, rfl⟩

theorem sameTracked_setHiLo (s : State) (hi lo : Word) : SameTracked s (s.setHiLo hi lo) :=
  ⟨rfl, rfl, rfl, rfl, rfl, rfl, rfl, rfl⟩

theorem sameTracked_postDataDebug (s : State) (va : Word) (write : Bool) :
    SameTracked s (s.postDataDebug va write) := ⟨rfl, rfl, rfl, rfl, rfl, rfl, rfl, rfl⟩

theorem sameTracked_noteParity (s : State) (detected : Bool) : SameTracked s (s.noteParity detected) :=
  ⟨rfl, rfl, rfl, rfl, rfl, rfl, rfl, rfl⟩

theorem sameTracked_popStatus (s : State) : SameTracked s s.popStatus := ⟨rfl, rfl, rfl, rfl, rfl, rfl, rfl, rfl⟩

theorem sameTracked_cp0Write (s : State) (n : RegIdx) (v : Word) : SameTracked s (s.cp0Write n v) :=
  ⟨by simp, by simp, by simp, by simp, by simp, by simp, by simp, by simp⟩

theorem sameTracked_tick (s : State) : SameTracked s s.tick := ⟨rfl, rfl, rfl, rfl, rfl, rfl, rfl, rfl⟩

theorem sameTracked_after (t s : State) : SameTracked t (t.after s) := ⟨rfl, rfl, rfl, rfl, rfl, rfl, rfl, rfl⟩

/-! ### Operations that keep the invariant -/

theorem setGpr_inv {s : State} (h : s.Inv) (i : RegIdx) (v : Word) : (s.setGpr i v).Inv :=
  { h with zero := (gprSet_zero s.gpr i v).trans h.zero }

/-- What the pending load leaves: x[0] stays zero, and nothing is pending any more. -/
theorem land_inv {s : State} (h : s.Inv) : s.land.Inv :=
  { h with
    zero := (landed_zero s.gpr s.ld).trans h.zero
    load := fun _ hp => nomatch hp }

theorem advance_inv {s : State} (h : s.Inv) : s.advance.Inv :=
  { h with
    sequential := fun _ => rfl
    slot := fun _ hd => nomatch hd }

theorem finish_inv {s : State} (h : s.Inv) : s.finish.Inv := advance_inv (land_inv h)

theorem writeBack_inv {s : State} (h : s.Inv) (rd : RegIdx) (v : Word) : (s.writeBack rd v).Inv :=
  advance_inv (setGpr_inv (land_inv h) rd v)

theorem loadBack_inv {s : State} (h : s.Inv) (rt : RegIdx) (v : Word) : (s.loadBack rt v).Inv :=
  { finish_inv h with
    load := fun p (hp : (if rt = 0 then none else some (PendingLoad.mk rt v)) = some p) => by
      split at hp
      · cases hp
      · next hrt => cases hp; exact hrt }

/-- A delayed transfer from outside a delay slot: there `npc` is `pc + 4`, the address of the delay slot. -/
theorem transfer_inv {s : State} (h : s.Inv) (hds : s.ds = none) (taken : Bool) (target : Word) :
    (s.transfer taken target).Inv :=
  { land_inv h with
    sequential := fun hd => nomatch hd
    slot := fun d hd => by cases hd; exact ⟨h.sequential hds, rfl⟩ }

theorem enterException_inv {s : State} (h : s.Inv) (e : Exc) (altered : Bool) : (s.enterException e altered).Inv :=
  { land_inv h with
    sequential := fun _ => rfl
    slot := fun _ hd => nomatch hd }

/-- A completed store takes cells out of the record of failed ones and adds none (log 39). -/
theorem settledCells_sublist (p : Params) (l : List Nat) (first : Word) (n : Nat) :
    (settledCells p l first n).Sublist l := List.filter_sublist

/-- A store keeps the canonical form of memory and of both records, with or without a bus error. -/
theorem store_inv {s : State} (h : s.Inv) (first : Word) (bs : List Byte) : (s.store first bs).Inv :=
  { h with
    memory := by
      rw [State.store_mem]
      split
      · exact h.memory
      · exact storeCells_wf _ _ _ _ h.memory
    record := noteCells_rising _ _ _ _ h.record
    recordBound := noteCells_lt h.recordBound
    failed := by
      rw [State.store_failed]
      split
      · exact noteCells_rising _ _ _ _ h.failed
      · exact h.failed.sublist (settledCells_sublist _ _ _ _)
    failedBound := by
      rw [State.store_failed]
      split
      · exact noteCells_lt h.failedBound
      · exact fun k hk => h.failedBound k ((settledCells_sublist _ _ _ _).subset hk) }

/-! ### The invariant over an instruction, a fetch and a step -/

/-- Every instruction keeps the invariant. -/
theorem execNext_inv {s t : State} (h : s.Inv) (ht : ExecNext s t) : t.Inv := by
  cases ht with
  | write rd v => exact writeBack_inv h rd v
  | branch taken target hds => exact transfer_inv h hds taken target
  | link rd taken target hds => exact setGpr_inv (transfer_inv h hds taken target) rd s.linkValue
  | hiLo hi lo => exact finish_inv ((sameTracked_setHiLo s hi lo).inv h)
  | load va rt v =>
    exact loadBack_inv ((sameTracked_noteParity _ _).inv ((sameTracked_postDataDebug s va false).inv h)) rt v
  | store va first bs => exact finish_inv (store_inv ((sameTracked_postDataDebug s va true).inv h) first bs)
  | cp0 rd v => exact finish_inv ((sameTracked_cp0Write s rd v).inv h)
  | readCp0 rt v => exact loadBack_inv h rt v
  | noop => exact finish_inv h
  | pop => exact finish_inv ((sameTracked_popStatus s).inv h)
  | exception e altered => exact enterException_inv h e altered
  | dataDebug va write altered => exact enterException_inv ((sameTracked_postDataDebug s va write).inv h) .debug altered
  | dataBus va altered =>
    exact enterException_inv ((sameTracked_noteParity _ _).inv ((sameTracked_postDataDebug s va false).inv h)) .dbe altered

/-- The fetch and what follows it keep the invariant. -/
theorem fetchNext_inv {s t : State} (h : s.Inv) (ht : FetchNext s t) : t.Inv := by
  have hp : s.posted.Inv := (sameTracked_posted s).inv h
  have hf : s.fetched.Inv := (sameTracked_fetched s).inv h
  cases ht with
  | debug => exact enterException_inv hp .debug _
  | address => exact enterException_inv hp (.adEL s.pc) _
  | bus => exact enterException_inv hf .ibe _
  | reserved => exact enterException_inv hf .ri _
  | late i =>
    have hl : ({ s.fetched with storeError := false } : State).Inv := { hf with }
    exact enterException_inv hl .dbe _
  | interrupt i => exact enterException_inv hf .int _
  | instr i _ _ he => exact execNext_inv hf (exec_next he)

theorem reset_inv : State.reset.Inv where
  memory := rfl
  record := .nil
  recordBound := fun _ hk => nomatch hk
  failed := .nil
  failedBound := fun _ hk => nomatch hk
  zero := rfl
  load := fun _ hp => nomatch hp
  sequential := fun _ => rfl
  slot := fun _ hd => nomatch hd

/-- The reset event keeps memory and the records, and takes the rest of the invariant from `State.reset`. -/
theorem applyReset_inv {s : State} (h : s.Inv) (k : ResetKind) : (s.applyReset k).Inv :=
  { reset_inv with
    memory := h.memory
    record := h.record
    recordBound := h.recordBound
    failed := h.failed
    failedBound := h.failedBound }

/-- Every step keeps the invariant, with or without a reset. -/
theorem stepNext_inv {s t : State} (h : s.Inv) (ht : StepNext s t) : t.Inv := by
  cases ht with
  | held k =>
    have htick : s.tick.Inv := (sameTracked_tick s).inv h
    exact { htick with }
  | reset k => exact (sameTracked_tick _).inv (applyReset_inv h k)
  | run u _ _ hr => exact (sameTracked_after u s).inv (fetchNext_inv h hr)

/-- Settles O16: every operation keeps the invariant, so each of the next states of a step has it. -/
theorem stepKeepsInvariant : Obligations.StepKeepsInvariant :=
  fun _ _ h hstep => stepNext_inv h (step_next hstep)

/-- Settles O15: the empty memory and records are canonical, and `npc` is `pc + 4`. -/
theorem invariantAtReset : Obligations.InvariantAtReset := reset_inv

/-! ### Operands -/

theorem State.pending_iff (s : State) (i : RegIdx) : s.pending i = true ↔ ∃ v, s.ld = some ⟨i, v⟩ := by
  unfold State.pending
  cases s.ld with
  | none => simp
  | some p =>
    obtain ⟨reg, value⟩ := p
    simp

@[simp] theorem State.operand_zero (s : State) (p : Port) : s.operand p 0 = 0 := rfl

/-- In the load delay slot of a register its operand is the free value (R18; log 6). -/
theorem State.operand_of_pending {s : State} {i : RegIdx} (p : Port) (hi : i ≠ 0) (h : s.pending i = true) :
    s.operand p i = Config.loadDelayRead s.draws p := by
  rw [State.operand, if_neg hi, if_pos h]

theorem State.operand_of_not_pending {s : State} {i : RegIdx} (p : Port) (hi : i ≠ 0) (h : ¬s.pending i = true) :
    s.operand p i = s.gpr[i.toNat]'i.isLt := by
  rw [State.operand, if_neg hi, if_neg h, State.x, if_neg hi]

/-- Settles O20, by whether the pending load names the register. -/
theorem operandReads : Obligations.OperandReads := by
  intro s i
  refine ⟨State.operand_zero s .rs, State.operand_zero s .rt, fun v hi hld => ?_, fun hi hld => ?_⟩
  · have hp : s.pending i = true := (State.pending_iff s i).mpr ⟨v, hld⟩
    exact ⟨State.operand_of_pending .rs hi hp, State.operand_of_pending .rt hi hp⟩
  · have hp : ¬s.pending i = true := fun h => ((State.pending_iff s i).mp h).elim hld
    exact ⟨State.operand_of_not_pending .rs hi hp, State.operand_of_not_pending .rt hi hp⟩

/-! ### How an instruction ends -/

/-- An instruction lands the pending load and writes at most one general register. -/
theorem execNext_registers {s t : State} (h : ExecNext s t) : RegsKept s t ∨ ∃ rd v, RegWritten s t rd v := by
  cases h with
  | write rd v => exact .inr ⟨rd, v, (writeBack_spec s rd v).regs⟩
  | link rd taken target => exact .inr ⟨rd, _, (transferLink_spec s rd taken target).regs⟩
  | cp0 rd v => exact .inl (regsKept_of_gpr (by simp))
  | _ => exact .inl (regsKept_of_gpr rfl)

/-- The four exception vectors (60_exceptions.md R252). -/
theorem Exc.vector_mem (e : Exc) (bev : Bool) :
    e.vector bev ∈ ([0x80000040, 0x80000080, 0xBFC00140, 0xBFC00180] : List Word) := by
  cases e <;> cases bev <;> simp [Exc.vector]

/-- The three ways in which an instruction ends. -/
theorem execNext_ends {s t : State} (h : ExecNext s t) :
    t.entered = s.entered ∧ Advanced s t ∨
      (∃ taken target, t.entered = s.entered ∧ Transferred s t taken target) ∨
      t.entered = true ∧ t.ds = none ∧ t.npc = t.pc + 4 ∧
        t.pc ∈ ([0x80000040, 0x80000080, 0xBFC00140, 0xBFC00180] : List Word) := by
  cases h with
  | branch taken target => exact .inr (.inl ⟨taken, target, rfl, rfl, rfl, rfl⟩)
  | link rd taken target => exact .inr (.inl ⟨taken, target, rfl, rfl, rfl, rfl⟩)
  | cp0 rd v => exact .inl ⟨by simp, by simp, by simp, rfl⟩
  | exception e _ => exact .inr (.inr ⟨rfl, rfl, rfl, e.vector_mem _⟩)
  | dataDebug => exact .inr (.inr ⟨rfl, rfl, rfl, Exc.vector_mem .debug _⟩)
  | dataBus => exact .inr (.inr ⟨rfl, rfl, rfl, Exc.vector_mem .dbe _⟩)
  | write | hiLo | load | store | readCp0 | noop | pop => exact .inl ⟨rfl, rfl, rfl, rfl⟩

/-- Settles O19, from the cases of `ExecNext`. -/
theorem everyInstructionEnds : Obligations.EveryInstructionEnds :=
  fun _ _ _ h => ⟨execNext_registers (exec_next h), execNext_ends (exec_next h)⟩

/-- An instruction that leaves a delay-slot record ended in the transfer that the record describes. -/
theorem exec_transferred_of_ds {i : Instr} {s t : State} {d : DelaySlot} (h : exec i s = .next t) (hd : t.ds = some d) :
    Transferred s t d.taken d.target := by
  rcases execNext_ends (exec_next h) with ⟨-, hadv⟩ | ⟨taken, target, -, htr⟩ | ⟨-, hnone, -⟩
  · rw [hadv.ds] at hd; cases hd
  · rw [htr.ds] at hd; cases hd; exact htr
  · rw [hnone] at hd; cases hd

/-- The instruction after one that ends without an exception is the one at `npc` (R15, R16). -/
theorem exec_pc_of_not_entered {i : Instr} {s t : State} (h : exec i s = .next t) (he : t.entered = false) :
    t.pc = s.npc := by
  rcases execNext_ends (exec_next h) with ⟨-, hadv⟩ | ⟨_, _, -, htr⟩ | ⟨hent, -⟩
  · exact hadv.pc
  · exact htr.pc
  · rw [he] at hent; cases hent

/-- Settles O39: the first instruction leaves the target in `npc`, and the second goes there. -/
theorem delaySlotThenTarget : Obligations.DelaySlotThenTarget := by
  intro i k s t u d hinv hds hi hd _ hk hu
  have htr : Transferred s t d.taken d.target := exec_transferred_of_ds hi hd
  have hnpc : s.npc = s.pc + 4 := hinv.sequential hds
  refine ⟨htr.pc.trans hnpc, ?_⟩
  rw [exec_pc_of_not_entered hk hu, htr.npc, hnpc, BitVec.add_assoc]
  rfl

/-! ### A step that comes to its instruction -/

theorem runWord_instr {s : State} {w : Word} {i : Instr} (h : decodeWord w = .instr i) : runWord s w = runInstr s i := by
  unfold runWord; rw [h]

/-- The asynchronous events look at nothing that the fetch changes, so an instruction that none of them precedes, or that ends
at decode, is executed. -/
theorem runInstr_fetched {s : State} {i : Instr}
    (h : decodeStops i s.fetched = true ∨ (s.storeErrorDue = false ∧ s.interrupted = false)) :
    runInstr s.fetched i = exec i s.fetched := by
  have hlate : s.fetched.storeErrorDue = s.storeErrorDue := rfl
  have hint : s.fetched.interrupted = s.interrupted := rfl
  unfold runInstr
  rw [hlate, hint]
  rcases h with hstop | ⟨hdue, hoff⟩
  · rw [if_pos hstop]
  · rw [hdue, hoff]; simp

/-- Settles O5: the fetch delivers the word, and nothing stands between its instruction and `exec`. -/
theorem stepRunsDecodedInstruction : Obligations.StepRunsDecodedInstruction := by
  intro s i hf hdec _ hasync
  have hrun : fetchAndRun s = exec i s.fetched := by
    rw [fetchAndRun_of_fetches hf, runWord_instr hdec, runInstr_fetched hasync]
  have hstep := step_of_fetch hf.reset hf.held
  rw [hrun] at hstep
  exact hstep

/-- Settles O12, by evaluation of the one state that it speaks of. -/
theorem stateAfterColdReset : Obligations.StateAfterColdReset := by
  unfold Obligations.StateAfterColdReset
  decide

/-! ### The bits of the register words -/

/-- The fields of the Status register at their bits (10_state.md R23). -/
theorem Status.getLsbD_toWord (r : Status) {k : Nat} (hk : k < 32) :
    r.toWord.getLsbD k =
      if 28 ≤ k then r.cu.getLsbD (k - 28) else if k = 22 then r.bev else if k = 20 then r.pe else if k = 18 then r.pz
      else if k = 16 then r.isC else if 8 ≤ k ∧ k ≤ 15 then r.mask.getLsbD (k - 8) else if k = 5 then r.kuo
      else if k = 4 then r.ieo else if k = 3 then r.kup else if k = 2 then r.iep else if k = 1 then r.kuc
      else if k = 0 then r.iec else false := by
  unfold Status.toWord
  simp only [BitVec.getLsbD_append]
  interval_cases k <;> simp

/-- The fields of the Cause register at their bits, with the levels of the INT pins as IP (R29, R30). -/
theorem Cause.getLsbD_toWord (r : Cause) (ip : BitVec 6) {k : Nat} (hk : k < 32) :
    (r.toWord ip).getLsbD k =
      if k = 31 then r.bd else if k = 30 then r.bt else if 28 ≤ k then r.ce.getLsbD (k - 28)
      else if 10 ≤ k ∧ k ≤ 15 then ip.getLsbD (k - 10) else if 8 ≤ k ∧ k ≤ 9 then r.sw.getLsbD (k - 8)
      else if 2 ≤ k ∧ k ≤ 5 then r.excCode.getLsbD (k - 2) else false := by
  unfold Cause.toWord
  simp only [BitVec.getLsbD_append]
  interval_cases k <;> simp

/-- The fields of the DCIC register at their bits (R36). -/
theorem Dcic.getLsbD_toWord (r : Dcic) {k : Nat} (hk : k < 32) :
    r.toWord.getLsbD k =
      if k = 31 then r.tr else if k = 30 then r.ud else if k = 29 then r.kd else if k = 28 then r.te
      else if k = 27 then r.dw else if k = 26 then r.dr else if k = 25 then r.dae else if k = 24 then r.pce
      else if k = 23 then r.de else if k = 5 then r.t else if k = 4 then r.w else if k = 3 then r.r
      else if k = 2 then r.da else if k = 1 then r.pc else if k = 0 then r.db else false := by
  unfold Dcic.toWord
  simp only [BitVec.getLsbD_append]
  interval_cases k <;> simp

/-- PRId is the part's number above the revision (R35). -/
theorem prid_toNat (p : Params) :
    (prid p).toNat = (match p.part with | .lr33300 => 0x0A00 | .lr33310 => 0x0B00) + p.pridRev.toNat := by
  show (0#16 ++ Part.imp p.part ++ p.pridRev : BitVec (16 + 8 + 8)).toNat = _
  rw [BitVec.toNat_append, ← Nat.shiftLeft_add_eq_or_of_lt p.pridRev.isLt]
  cases p.part <;> rfl

/-- Settles O44, word by word. -/
theorem cp0Layouts : Obligations.Cp0Layouts :=
  ⟨fun r _ => r.getLsbD_toWord, fun r ip _ => r.getLsbD_toWord ip, fun r _ => r.getLsbD_toWord, prid_toNat⟩

/-! ### The words that MTC0 leaves -/

/-- R28 as a word: PE is kept where a zero is written to it, the other fields take the value's bits. -/
theorem Status.toWord_written (r : Status) (v : Word) :
    (r.written v).toWord = (v &&& 0xF045FF3F) ||| ((r.toWord &&& ~~~v) &&& 0x00100000) := by
  apply BitVec.eq_of_getLsbD_eq
  intro k hk
  rw [BitVec.getLsbD_or, BitVec.getLsbD_and, BitVec.getLsbD_and, BitVec.getLsbD_and, BitVec.getLsbD_not,
    Status.getLsbD_toWord _ hk, Status.getLsbD_toWord _ hk]
  unfold Status.written
  interval_cases k <;> simp

/-- R31 as a word. -/
theorem Cause.toWord_written (r : Cause) (v : Word) (ip : BitVec 6) :
    (r.written v).toWord ip = (r.toWord ip &&& ~~~0x300) ||| (v &&& 0x300) := by
  apply BitVec.eq_of_getLsbD_eq
  intro k hk
  rw [BitVec.getLsbD_or, BitVec.getLsbD_and, BitVec.getLsbD_and, Cause.getLsbD_toWord _ _ hk, Cause.getLsbD_toWord _ _ hk]
  unfold Cause.written
  interval_cases k <;> simp

/-- R37 as a word. -/
theorem Dcic.toWord_ofWord (v : Word) : (Dcic.ofWord v).toWord = v &&& 0xFF80003F := by
  apply BitVec.eq_of_getLsbD_eq
  intro k hk
  rw [BitVec.getLsbD_and, Dcic.getLsbD_toWord _ hk]
  unfold Dcic.ofWord
  interval_cases k <;> simp

/-! ### What MTC0 writes: one equation for each register -/

@[simp] theorem State.cp0Write_sr (s : State) (n : RegIdx) (v : Word) :
    (s.cp0Write n v).sr = if n = 12 then s.sr.written v else s.sr := by
  unfold State.cp0Write; split <;> simp_all

@[simp] theorem State.cp0Write_cause (s : State) (n : RegIdx) (v : Word) :
    (s.cp0Write n v).cause = if n = 13 then s.cause.written v else s.cause := by
  unfold State.cp0Write; split <;> simp_all

@[simp] theorem State.cp0Write_epc (s : State) (n : RegIdx) (v : Word) :
    (s.cp0Write n v).epc = if n = 14 then Config.epcAfterWrite s.draws v else s.epc := by
  unfold State.cp0Write; split <;> simp_all

@[simp] theorem State.cp0Write_dcic (s : State) (n : RegIdx) (v : Word) :
    (s.cp0Write n v).dcic = if n = 7 then .ofWord v else s.dcic := by
  unfold State.cp0Write; split <;> simp_all

@[simp] theorem State.cp0Write_bpc (s : State) (n : RegIdx) (v : Word) :
    (s.cp0Write n v).bpc = if n = 3 then v else s.bpc := by
  unfold State.cp0Write; split <;> simp_all

@[simp] theorem State.cp0Write_bda (s : State) (n : RegIdx) (v : Word) :
    (s.cp0Write n v).bda = if n = 5 then v else s.bda := by
  unfold State.cp0Write; split <;> simp_all

@[simp] theorem State.cp0Write_bdam (s : State) (n : RegIdx) (v : Word) :
    (s.cp0Write n v).bdam = if n = 9 then v else s.bdam := by
  unfold State.cp0Write; split <;> simp_all

@[simp] theorem State.cp0Write_bpcm (s : State) (n : RegIdx) (v : Word) :
    (s.cp0Write n v).bpcm = if n = 11 then v else s.bpcm := by
  unfold State.cp0Write; split <;> simp_all

/-! ### The instruction MTC0 -/

/-- MTC0, MFC0 and RFE are permitted in kernel mode, and in user mode where Cu0 is set (48_cp0.md R210). -/
theorem State.cp0Denied_eq_false {s : State} (h : s.sr.kuc = false ∨ s.sr.cu.getLsbD 0 = true) : s.cp0Denied = false := by
  have husable : s.sr.usable 0 = s.sr.cu.getLsbD 0 := rfl
  rw [State.cp0Denied, husable]
  rcases h with h | h <;> simp [h]

/-- A permitted MTC0 to a register that exists writes it and advances. -/
theorem exec_mtc0 {s : State} {rd : RegIdx} (rt : RegIdx) (h : s.sr.kuc = false ∨ s.sr.cu.getLsbD 0 = true)
    (hrd : tlbRegister rd = false) : exec (.mtc0 rt rd) s = .next (s.cp0Write rd (s.rt rt)).finish := by
  show execMtc0 rt rd s = _
  rw [execMtc0, State.cp0Denied_eq_false h, hrd]
  rfl

/-- What MTC0 leaves whatever CP0 register it names. -/
structure Mtc0Frame (s t : State) : Prop where
  regs : RegsKept s t
  ld : t.ld = none
  advanced : Advanced s t
  hiLo : SameHiLo s t
  memory : SameMemory s t
  outside : SameOutside s t
  entered : t.entered = s.entered
  badA : t.badA = s.badA
  tar : t.tar = s.tar

theorem State.cp0Write_finish_frame (s : State) (n : RegIdx) (v : Word) : Mtc0Frame s (s.cp0Write n v).finish where
  regs := regsKept_of_gpr (by simp)
  ld := rfl
  advanced := ⟨by simp, by simp, rfl⟩
  hiLo := ⟨by simp, by simp⟩
  memory := ⟨fun _ => by simp, by simp, by simp, by simp⟩
  outside := ⟨by simp, by simp, by simp, by simp, by simp⟩
  entered := by simp
  badA := by simp
  tar := by simp

/-- Settles O47, by R28's formula for the word that is written. -/
theorem mtc0Status : Obligations.Mtc0Status := by
  intro s rt h
  have f := State.cp0Write_finish_frame s 12 (s.rt rt)
  exact ⟨_, exec_mtc0 rt h rfl, Status.toWord_written s.sr (s.rt rt), f.regs, f.ld, f.advanced, f.hiLo, rfl,
    ⟨rfl, rfl, rfl, rfl⟩, ⟨rfl, rfl, rfl, rfl⟩, f.memory, f.outside, f.entered⟩

/-- Settles O48: the same for Cause, at any level of the INT pins. -/
theorem mtc0Cause : Obligations.Mtc0Cause := by
  intro s rt h
  have f := State.cp0Write_finish_frame s 13 (s.rt rt)
  exact ⟨_, exec_mtc0 rt h rfl, Cause.toWord_written s.cause (s.rt rt), f.regs, f.ld, f.advanced, f.hiLo, rfl, rfl, rfl,
    f.badA, f.tar, ⟨rfl, rfl, rfl, rfl⟩, f.memory, f.outside, f.entered⟩

theorem debugRegister_ne {rd : RegIdx} (h : rd ∈ ([3, 5, 7, 9, 11] : List RegIdx)) :
    tlbRegister rd = false ∧ rd ≠ 12 ∧ rd ≠ 13 ∧ rd ≠ 14 := by
  revert rd; decide

/-- Settles O49: each register by its own equation for `cp0Write`. -/
theorem mtc0Debug : Obligations.Mtc0Debug := by
  intro s rt rd h hrd
  obtain ⟨hthere, hsr, hcause, hepc⟩ := debugRegister_ne hrd
  have f := State.cp0Write_finish_frame s rd (s.rt rt)
  have hdcic : (s.cp0Write rd (s.rt rt)).dcic.toWord = if rd = 7 then s.rt rt &&& 0xFF80003F else s.dcic.toWord := by
    rw [State.cp0Write_dcic, apply_ite Dcic.toWord, Dcic.toWord_ofWord]
  exact ⟨_, exec_mtc0 rt h hthere, hdcic, State.cp0Write_bpc .., State.cp0Write_bda .., State.cp0Write_bdam ..,
    State.cp0Write_bpcm .., f.regs, f.ld, f.advanced, f.hiLo,
    (State.cp0Write_sr ..).trans (if_neg hsr),
    ⟨(State.cp0Write_cause ..).trans (if_neg hcause), (State.cp0Write_epc ..).trans (if_neg hepc), f.badA, f.tar⟩,
    f.memory, f.outside, f.entered⟩

theorem savedRegister_ne {rd : RegIdx} (h : rd ∈ ([6, 8, 14, 15] : List RegIdx)) :
    tlbRegister rd = false ∧ rd ≠ 12 ∧ rd ≠ 13 ∧ rd ≠ 7 ∧ rd ≠ 3 ∧ rd ≠ 5 ∧ rd ≠ 9 ∧ rd ≠ 11 := by
  revert rd; decide

/-- Settles O50: the equations for `cp0Write` leave EPC as the one register that may change. -/
theorem mtc0ReadOnlyAndEpc : Obligations.Mtc0ReadOnlyAndEpc := by
  intro s rt rd h hrd
  obtain ⟨hthere, hsr, hcause, hdcic, hbpc, hbda, hbdam, hbpcm⟩ := savedRegister_ne hrd
  have f := State.cp0Write_finish_frame s rd (s.rt rt)
  exact ⟨_, exec_mtc0 rt h hthere, State.cp0Write_epc .., f.regs, f.ld, f.advanced, f.hiLo,
    (State.cp0Write_sr ..).trans (if_neg hsr),
    (State.cp0Write_dcic ..).trans (if_neg hdcic), (State.cp0Write_cause ..).trans (if_neg hcause), f.badA, f.tar,
    ⟨(State.cp0Write_bpc ..).trans (if_neg hbpc), (State.cp0Write_bpcm ..).trans (if_neg hbpcm),
      (State.cp0Write_bda ..).trans (if_neg hbda), (State.cp0Write_bdam ..).trans (if_neg hbdam)⟩,
    f.memory, f.outside, f.entered⟩

end Sys2Proof.Machine
end

section
/-! SUPPORT. Proofs of the statements about memory: the address mapping, the errors of a fetch, the checks of a data access, and
the bytes that a step from user mode leaves. -/

namespace Sys2Proof.Machine

/-! ### Addresses -/

/-- Bit 31 of an address as a bound. -/
theorem getLsbD_31_iff (va : Word) : va.getLsbD 31 = true ↔ 0x80000000 ≤ va.toNat := by
  rw [← BitVec.msb_eq_getLsbD_last, BitVec.msb_eq_true_iff_two_mul_ge]
  omega

theorem inKseg01_iff (va : Word) : inKseg01 va = true ↔ 0x80000000 ≤ va.toNat ∧ va.toNat ≤ 0xBFFFFFFF := by
  have h := va.isLt
  have e : (va.extractLsb' 30 2).toNat = va.toNat / 2 ^ 30 := by
    rw [BitVec.extractLsb'_toNat, Nat.shiftRight_eq_div_pow]
    omega
  rw [inKseg01, beq_iff_eq, ← BitVec.toNat_inj, e]
  show va.toNat / 2 ^ 30 = 2 ↔ _
  omega

/-- kseg0 and kseg1 lie on the first 512 Mbyte (R51, R53). -/
theorem translate_kseg01 (p : Params) {va : Word} (h : 0x80000000 ≤ va.toNat ∧ va.toNat ≤ 0xBFFFFFFF) :
    (translate p va).toNat = va.toNat % 0x20000000 := by
  rw [translate, if_pos ((inKseg01_iff va).mpr h), BitVec.toNat_and]
  exact Nat.and_two_pow_sub_one_eq_mod va.toNat 29

theorem translate_mapped (p : Params) {va : Word} (h : ¬(0x80000000 ≤ va.toNat ∧ va.toNat ≤ 0xBFFFFFFF)) :
    translate p va = physMap p.physMap va := by
  rw [translate, if_neg (fun hk => h ((inKseg01_iff va).mp hk))]

/-! ### What a read gives where it is not the memory's -/

/-- Where the last store to a byte of memory failed, a read gives a free value (R63, R318; log 39). -/
theorem State.readByte_failed {s : State} (kind : Access) {va : Word} (h : (s.regionOf va).place ≠ .device)
    (hf : s.cellOf va ∈ s.failed) : s.readByte kind va = Config.failedStoreByte s.draws kind va := by
  have hc : s.failed.contains (s.cellOf va) = true := by simpa using hf
  unfold State.readByte
  split
  · exact if_pos hc
  · exact if_pos hc
  · next hd => exact absurd hd h

/-- What a device gives is free (R55; log 27). -/
theorem State.readByte_device {s : State} (kind : Access) {va : Word} (h : (s.regionOf va).place = .device) :
    s.readByte kind va = Config.deviceByte s.draws kind (s.cellOf va) := by
  unfold State.readByte
  rw [h]

/-- Without a platform description an address is plain memory. -/
theorem State.regionOf_default {s : State} (h : s.params.platform = []) (va : Word) :
    s.regionOf va = ⟨s.cellOf va, s.cellOf va, .ram, false, false⟩ := by
  rw [State.regionOf, h]
  rfl

/-- Settles O21: the segments by their bounds, and a read by the place of its address. -/
theorem addressMapping : Obligations.AddressMapping := by
  refine ⟨fun p va => ⟨translate_kseg01 p, fun h => ⟨translate_mapped p h, fun hp => ?_⟩⟩,
    fun s va => ⟨State.readByte_memory .data, State.readByte_failed .data, State.readByte_device .data,
      State.codeAt_eq_wordAt, fun hp => ?_⟩⟩
  · rw [translate_mapped p h, hp]
    rfl
  · rw [State.regionOf_default hp]
    exact ⟨rfl, rfl, rfl⟩

/-! ### The fetch -/

theorem mayFetch_iff (s : State) (va : Word) :
    s.MayFetch va ↔ va.toNat % 4 = 0 ∧ ¬(s.sr.kuc = true ∧ va.getLsbD 31 = true) := by
  rw [getLsbD_31_iff]

/-- A fetch that raises an exception ends the step with its entry. -/
theorem step_of_raise {s u : State} {e : Exc} (h : s.ReachesFetch) (hr : fetchAndRun s = raise e u) :
    ∃ t, Raised u t e ∧ step s = .next (t.after s) := by
  obtain ⟨t, ht, hraised⟩ := raise_spec u e
  refine ⟨t, hraised, ?_⟩
  rw [step_of_fetch h.reset h.held, hr, ht]

theorem step_of_denied {s : State} (h : s.ReachesFetch) (hd : ¬s.MayFetch s.pc) :
    ∃ t, Raised s.posted t (.adEL s.pc) ∧ step s = .next (t.after s) := by
  refine step_of_raise h ?_
  rw [fetchAndRun_of_reaches h, if_pos ((fetchDenied_iff s s.pc).mpr hd)]

theorem step_of_fetchBusError {s : State} (h : s.ReachesFetch) (ha : s.MayFetch s.pc) (hb : s.FetchBusError) :
    ∃ t, Raised s.fetched t .ibe ∧ step s = .next (t.after s) := by
  refine step_of_raise h ?_
  rw [fetchAndRun_of_reaches h, if_neg (fun hd => (fetchDenied_iff s s.pc).mp hd ha), if_pos ((fetchBerr_iff s).mpr hb)]

theorem step_of_storedCode {s : State} (h : s.ReachesFetch) (ha : s.MayFetch s.pc) (hb : ¬s.FetchBusError)
    (hc : s.StoredCode s.pc) : step s = .fault .fetchAfterStoreToCode := by
  rw [step_of_fetch h.reset h.held, fetchAndRun_of_reaches h, if_neg (fun hd => (fetchDenied_iff s s.pc).mp hd ha),
    if_neg (fun hb' => hb ((fetchBerr_iff s).mp hb')), if_pos ((staleCode_iff s s.pc).mpr hc)]

/-- A fetch that delivers an instruction which no asynchronous event precedes runs it. -/
theorem step_of_fetchesInstr {s : State} {i : Instr} (h : s.FetchesWord) (hi : decodeWord (s.codeAt s.pc) = .instr i)
    (ha : decodeStops i s.fetched = true ∨ (s.storeErrorDue = false ∧ s.interrupted = false)) :
    step s =
      match exec i s.fetched with
      | .next t => .next (t.after s)
      | .fault f => .fault f
      | .refused r => .refused r := by
  have hstep := step_of_fetch h.reset h.held
  rw [fetchAndRun_of_fetches h, runWord_instr hi, runInstr_fetched ha] at hstep
  exact hstep

/-- Settles O7: one clause for each check of the fetch, in their order, and the last for a fetch from kseg1, which passes them and
reads what a load reads. -/
theorem fetchErrors : Obligations.FetchErrors := by
  intro s h
  refine ⟨fun hd => step_of_denied h ?_, fun hal hseg => ?_⟩
  · rw [mayFetch_iff]
    rintro ⟨hal, hseg⟩
    exact hd.elim (fun hmis => hmis hal) hseg
  have hmay : s.MayFetch s.pc := (mayFetch_iff s s.pc).mpr ⟨hal, hseg⟩
  refine ⟨step_of_fetchBusError h hmay, fun hb hout hst => step_of_storedCode h hmay hb ⟨hout, hst⟩,
    fun hb hlo hhi hmem i hi hasync => ?_⟩
  have hw : s.FetchesWord := { h with allowed := hmay, noBusError := hb, noStoredCode := fun hc => hc.1 ⟨hlo, hhi⟩ }
  exact step_of_fetchesInstr hw (State.codeAt_eq_wordAt hmem ▸ hi) hasync

/-! ### The checks of a data access -/

theorem segmentDenied_iff (s : State) (va : Word) :
    s.segmentDenied va = true ↔ s.sr.kuc = true ∧ va.getLsbD 31 = true := by
  rw [State.segmentDenied, Bool.and_eq_true]

/-- The address check of R100. -/
def State.addressFails (s : State) (va : Word) (aligned : Bool) : Bool := !aligned || s.segmentDenied va

theorem addressFails_iff (s : State) (va : Word) (aligned : Bool) :
    s.addressFails va aligned = true ↔ aligned = false ∨ (s.sr.kuc = true ∧ va.getLsbD 31 = true) := by
  rw [State.addressFails, Bool.or_eq_true, Bool.not_eq_true', segmentDenied_iff]

/-- The status bits that a data-address condition which holds leaves (60_exceptions.md R275). -/
theorem postDataDebug_of_hit {s : State} {va : Word} {write : Bool} (h : s.daHit va write = true) :
    s.postDataDebug va write =
      { s with dcic := { s.dcic with db := true, da := true, w := s.dcic.w || write, r := s.dcic.r || !write } } := by
  simp [State.postDataDebug, h]

section Load

variable {s : State} {va : Word} {aligned : Bool} (span : Word × Nat) (rt : RegIdx) (v : Word)

theorem loadAccess_addressError (h : s.addressFails va aligned = true) :
    loadAccess s va aligned span rt v = raise (.adEL va) s := if_pos h

theorem loadAccess_isolated (h : s.addressFails va aligned = false) (hc : s.sr.isC = true) :
    loadAccess s va aligned span rt v = .refused .isolatedCache := by
  rw [State.addressFails] at h
  rw [loadAccess_eq, h, hc]
  rfl

theorem loadAccess_debug (h : s.addressFails va aligned = false) (hc : s.sr.isC = false)
    (hd : s.daHit va false = true ∧ s.dcic.tr = true) :
    loadAccess s va aligned span rt v = raise .debug (s.postDataDebug va false) := by
  rw [State.addressFails] at h
  rw [loadAccess_eq, h, hc, hd.1, hd.2]
  rfl

theorem loadAccess_busError (h : s.addressFails va aligned = false) (hc : s.sr.isC = false)
    (hd : ¬(s.daHit va false = true ∧ s.dcic.tr = true)) (hb : s.BusError false span.1 span.2) :
    loadAccess s va aligned span rt v = raise .dbe ((s.postDataDebug va false).noteParity s.now.parityData) := by
  rw [State.addressFails] at h
  rw [← Bool.and_eq_true, Bool.not_eq_true] at hd
  rw [loadAccess_eq, h, hc, hd, (dataBerr_iff s false span.1 span.2).mpr hb]
  rfl

end Load

section Store

variable {s : State} {o : StoreOp}

theorem storeAccess_addressError (h : s.addressFails o.va o.aligned = true) :
    storeAccess s o = raise (.adES o.va) s := if_pos h

theorem storeAccess_isolated (h : s.addressFails o.va o.aligned = false) (hc : s.sr.isC = true) :
    storeAccess s o = .refused .isolatedCache := by
  rw [State.addressFails] at h
  rw [storeAccess, h, hc]
  rfl

theorem storeAccess_debug (h : s.addressFails o.va o.aligned = false) (hc : s.sr.isC = false)
    (hd : s.daHit o.va true = true ∧ s.dcic.tr = true) :
    storeAccess s o = raise .debug (s.postDataDebug o.va true) := by
  rw [State.addressFails] at h
  rw [storeAccess, h, hc, hd.1, hd.2]
  rfl

end Store

/-! ### The twelve loads and stores -/

/-- The bytes of LWL and SWL, by the place of the address in its word (R58). -/
theorem leftSpan_eq (big : Bool) (va : Word) :
    leftSpan big va =
      if big then (va, 4 - va.toNat % 4) else (va &&& 0xFFFFFFFC, va.toNat % 4 + 1) := by
  rw [← laneOf_toNat]
  rfl

/-- The bytes of LWR and SWR (R58). -/
theorem rightSpan_eq (big : Bool) (va : Word) :
    rightSpan big va =
      if big then (va &&& 0xFFFFFFFC, va.toNat % 4 + 1) else (va, 4 - va.toNat % 4) := by
  rw [← laneOf_toNat]
  rfl

/-- The seven loads of one address, each with the address of the first byte it reads and their number (R57, R58). -/
def loadRows (big : Bool) (rt : RegIdx) (offset : BitVec 16) (base : RegIdx) (va : Word) : List (Instr × Word × Nat) :=
  [(.lb rt offset base, va, 1), (.lbu rt offset base, va, 1), (.lh rt offset base, va, 2), (.lhu rt offset base, va, 2),
    (.lw rt offset base, va, 4), (.lwl rt offset base, leftSpan big va), (.lwr rt offset base, rightSpan big va)]

/-- The five stores. -/
def storeInstrs (rt : RegIdx) (offset : BitVec 16) (base : RegIdx) : List Instr :=
  [.sb rt offset base, .sh rt offset base, .sw rt offset base, .swl rt offset base, .swr rt offset base]

/-- The alignment that a load or store asks of its address (R59). -/
def accessAligned (va : Word) : Instr → Bool
  | .lw _ _ _ | .sw _ _ _ => wordAligned va
  | .lh _ _ _ | .lhu _ _ _ | .sh _ _ _ => halfAligned va
  | _ => true

section Rows

variable {s : State} {rt base : RegIdx} {offset : BitVec 16} {va : Word} {i : Instr} {span : Word × Nat}

/-- A load is `loadAccess` with its alignment and the bytes it reads. -/
theorem exec_of_loadRow (hva : va = s.address base offset)
    (h : (i, span) ∈ loadRows s.params.bigEndian rt offset base va) :
    ∃ v, exec i s = loadAccess s va (accessAligned va i) span rt v := by
  subst hva
  simp only [loadRows, List.mem_cons, List.not_mem_nil, or_false, Prod.mk.injEq] at h
  obtain ⟨rfl, rfl⟩ | ⟨rfl, rfl⟩ | ⟨rfl, rfl⟩ | ⟨rfl, rfl⟩ | ⟨rfl, rfl⟩ | ⟨rfl, rfl⟩ | ⟨rfl, rfl⟩ := h <;>
    exact ⟨_, rfl⟩

/-- A store is `storeAccess` at its address with its alignment. -/
theorem exec_of_storeInstr (hva : va = s.address base offset) (h : i ∈ storeInstrs rt offset base) :
    ∃ o, exec i s = storeAccess s o ∧ o.va = va ∧ o.aligned = accessAligned va i := by
  subst hva
  simp only [storeInstrs, List.mem_cons, List.not_mem_nil, or_false] at h
  obtain rfl | rfl | rfl | rfl | rfl := h <;> exact ⟨_, rfl, rfl, rfl⟩

/-- LW and LH, LHU ask for alignment, the other loads do not. -/
theorem loadRow_aligned_iff {big : Bool} (h : (i, span) ∈ loadRows big rt offset base va) :
    accessAligned va i = true ↔
      (i = .lw rt offset base → va.toNat % 4 = 0) ∧
        (i = .lh rt offset base ∨ i = .lhu rt offset base → va.toNat % 2 = 0) := by
  simp only [loadRows, List.mem_cons, List.not_mem_nil, or_false, Prod.mk.injEq] at h
  obtain ⟨rfl, -⟩ | ⟨rfl, -⟩ | ⟨rfl, -⟩ | ⟨rfl, -⟩ | ⟨rfl, -⟩ | ⟨rfl, -⟩ | ⟨rfl, -⟩ := h <;>
    simp [accessAligned, wordAligned_iff, halfAligned_iff]

/-- SW and SH ask for alignment, the other stores do not. -/
theorem storeInstr_aligned_iff (h : i ∈ storeInstrs rt offset base) :
    accessAligned va i = true ↔
      (i = .sw rt offset base → va.toNat % 4 = 0) ∧ (i = .sh rt offset base → va.toNat % 2 = 0) := by
  simp only [storeInstrs, List.mem_cons, List.not_mem_nil, or_false] at h
  obtain rfl | rfl | rfl | rfl | rfl := h <;> simp [accessAligned, wordAligned_iff, halfAligned_iff]

end Rows

/-- Settles O59: each load and store goes through one shared access, whose first check is the address. -/
theorem addressErrors : Obligations.AddressErrors := by
  intro s rt base offset va i hva
  refine ⟨fun hi herr => ?_, fun hi herr => ?_⟩
  · have hi' : i ∈ (loadRows s.params.bigEndian rt offset base va).map Prod.fst := hi
    obtain ⟨⟨i, span⟩, hrow, rfl⟩ := List.mem_map.mp hi'
    obtain ⟨v, hexec⟩ := exec_of_loadRow hva hrow
    have hfails : s.addressFails va (accessAligned va i) = true := by
      rw [addressFails_iff, ← Bool.not_eq_true, loadRow_aligned_iff hrow]
      rcases herr with hseg | ⟨hi, hmis⟩ | ⟨hi, hmis⟩
      · exact .inr hseg
      · exact .inl fun h => hmis (h.1 hi)
      · exact .inl fun h => hmis (h.2 hi)
    rw [hexec, loadAccess_addressError span rt v hfails]
    exact raise_spec s (.adEL va)
  · obtain ⟨o, hexec, hoa, haligned⟩ := exec_of_storeInstr hva hi
    have hfails : s.addressFails o.va o.aligned = true := by
      rw [hoa, haligned, addressFails_iff, ← Bool.not_eq_true, storeInstr_aligned_iff hi]
      rcases herr with hseg | ⟨hi, hmis⟩ | ⟨hi, hmis⟩
      · exact .inr hseg
      · exact .inl fun h => hmis (h.1 hi)
      · exact .inl fun h => hmis (h.2 hi)
    rw [hexec, storeAccess_addressError hfails, hoa]
    exact raise_spec s (.adES va)

/-- An aligned access in kernel mode, or below 0x80000000, passes the address check. -/
theorem addressFails_eq_false {s : State} {va : Word} {aligned : Bool} (ha : aligned = true)
    (hseg : ¬(s.sr.kuc = true ∧ va.getLsbD 31 = true)) : s.addressFails va aligned = false := by
  rw [← Bool.not_eq_true, addressFails_iff, ha]
  exact fun h => h.elim Bool.noConfusion hseg

/-- Settles O60, for the loads and for the stores: the checks of the shared access in their order. -/
theorem dataAccessEnds : Obligations.DataAccessEnds := by
  intro s rt base offset va first k n write i hva hk hmem hword hhalf hseg
  rw [hk, ← leftSpan_eq, ← rightSpan_eq] at hmem
  cases write with
  | false =>
    have hrow : (i, first, n) ∈ loadRows s.params.bigEndian rt offset base va := by simpa [loadRows] using hmem
    obtain ⟨v, hexec⟩ := exec_of_loadRow hva hrow
    have hpass : s.addressFails va (accessAligned va i) = false :=
      addressFails_eq_false ((loadRow_aligned_iff hrow).mpr
        ⟨fun e => hword (by simp [e]), fun e => hhalf (by rcases e with rfl | rfl <;> simp)⟩) hseg
    rw [hexec]
    refine ⟨loadAccess_isolated _ rt v hpass, fun hc hd htr => ?_, fun hc hnd _ hb => ?_⟩
    · rw [loadAccess_debug _ rt v hpass hc ⟨hd, htr⟩, postDataDebug_of_hit hd]
      exact raise_spec _ .debug
    · rw [loadAccess_busError _ rt v hpass hc hnd hb]
      obtain ⟨t, ht, hraised⟩ := raise_spec ((s.postDataDebug va false).noteParity s.now.parityData) .dbe
      exact ⟨_, t, ht, hraised, postDataDebug_posted s va false, rfl⟩
  | true =>
    have hstore : i ∈ storeInstrs rt offset base := by
      simp only [List.mem_cons, List.not_mem_nil, or_false, Prod.mk.injEq, Bool.true_eq_false, false_and, false_or,
        true_and] at hmem
      obtain ⟨rfl, -⟩ | ⟨rfl, -⟩ | ⟨rfl, -⟩ | ⟨rfl, -⟩ | ⟨rfl, -⟩ := hmem <;> simp [storeInstrs]
    obtain ⟨o, hexec, rfl, haligned⟩ := exec_of_storeInstr hva hstore
    have hpass : s.addressFails o.va o.aligned = false :=
      addressFails_eq_false (haligned.trans ((storeInstr_aligned_iff hstore).mpr
        ⟨fun e => hword (by simp [e]), fun e => hhalf (by simp [e])⟩)) hseg
    rw [hexec]
    refine ⟨storeAccess_isolated hpass, fun hc hd htr => ?_, fun _ _ hw => by cases hw⟩
    rw [storeAccess_debug hpass hc ⟨hd, htr⟩, postDataDebug_of_hit hd]
    exact raise_spec _ .debug

/-! ### User mode -/

/-- A byte keeps what it holds and whether what it reads as is open. -/
structure KeepsByte (s t : State) (a : Nat) : Prop where
  byte : t.mem.read a = s.mem.read a
  failed : a ∈ t.failed ↔ a ∈ s.failed

/-- A store keeps every byte whose cell it does not name, with or without a bus error. -/
theorem Stored.keepsByte {s t : State} {va first : Word} {n a : Nat} (h : Stored s t va first n)
    (ha : ∀ j < n, a ≠ s.cellOf (first + BitVec.ofNat 32 j)) : KeepsByte s t a where
  byte := h.bytes a ha
  failed := by
    have hno : ¬∃ j < n, a = s.cellOf (first + BitVec.ofNat 32 j) := fun ⟨j, hj, e⟩ => ha j hj e
    by_cases hb : s.BusError true first n
    · rw [h.failed hb, or_iff_left hno]
    · rw [h.settled hb, and_iff_left (fun e => hno e.2)]

theorem getLsbD_31_alignedWord (va : Word) : (alignedWord va).getLsbD 31 = va.getLsbD 31 := by
  simp [alignedWord]

/-- The bytes of one word lie on one side of 0x80000000. -/
theorem InWordOf.getLsbD_31 {va first : Word} {n j : Nat} (h : InWordOf va first n) (hj : j < n) :
    (first + BitVec.ofNat 32 j).getLsbD 31 = va.getLsbD 31 := by
  rw [← getLsbD_31_alignedWord, h j hj, getLsbD_31_alignedWord]

/-- In user mode an access that the address check lets through has bit 31 clear (R52). -/
theorem getLsbD_31_of_user {s : State} {va : Word} (hu : s.sr.kuc = true) (h : s.segmentDenied va = false) :
    va.getLsbD 31 = false := by
  rw [State.segmentDenied, hu] at h
  exact h

section UserMode

variable {s t : State} {a : Nat}

/-- An instruction in user mode keeps every byte that only addresses with bit 31 set name: of the next states only the store's
has another memory. -/
theorem execNext_keepsByte (hu : s.sr.kuc = true) (ha : ∀ va : Word, va.getLsbD 31 = false → s.cellOf va ≠ a)
    (h : ExecNext s t) : KeepsByte s t a := by
  cases h with
  | store va first bs hd hw =>
    refine (store_spec s va first bs).keepsByte fun j hj => (ha _ ?_).symm
    rw [hw.getLsbD_31 hj]
    exact getLsbD_31_of_user hu hd
  | cp0 rd v => exact ⟨by simp, by simp⟩
  | _ => exact ⟨rfl, Iff.rfl⟩

theorem fetchNext_keepsByte (hu : s.sr.kuc = true) (ha : ∀ va : Word, va.getLsbD 31 = false → s.cellOf va ≠ a)
    (h : FetchNext s t) : KeepsByte s t a := by
  cases h with
  | instr i _ _ he =>
    obtain ⟨hbyte, hopen⟩ := execNext_keepsByte (s := s.fetched) hu ha (exec_next he)
    exact ⟨hbyte, hopen⟩
  | _ => exact ⟨rfl, Iff.rfl⟩

end UserMode

/-- Settles O18: a reset keeps memory, and an instruction stores only where its address check let it. -/
theorem userStoresConfined : Obligations.UserStoresConfined := by
  intro s t a hu hstep ha
  cases step_next hstep with
  | held | reset => exact ⟨rfl, Iff.rfl⟩
  | run u _ _ hr =>
    obtain ⟨hbyte, hopen⟩ := fetchNext_keepsByte hu ha hr
    exact ⟨hbyte, hopen⟩

end Sys2Proof.Machine
end

section
/-! SUPPORT. Proofs of the statements about the encoding: the decoder and the encoder undo each other, the reserved opcodes, the
opcode table, and the step on a word that is no instruction. -/

namespace Sys2Proof

/-! ### When a word is made of given fields -/

theorem rWord_eq_iff (op : BitVec 6) (rs rt rd shamt : BitVec 5) (funct : BitVec 6) (w : Word) :
    rWord op rs rt rd shamt funct = w ↔
      opOf w = op ∧ rsOf w = rs ∧ rtOf w = rt ∧ rdOf w = rd ∧ shamtOf w = shamt ∧ functOf w = funct := by
  constructor
  · rintro rfl
    simp
  · rintro ⟨rfl, rfl, rfl, rfl, rfl, rfl⟩
    exact rWord_of_fields w

theorem iWord_eq_iff (op : BitVec 6) (rs rt : BitVec 5) (imm : BitVec 16) (w : Word) :
    iWord op rs rt imm = w ↔ opOf w = op ∧ rsOf w = rs ∧ rtOf w = rt ∧ immOf w = imm := by
  constructor
  · rintro rfl
    simp
  · rintro ⟨rfl, rfl, rfl, rfl⟩
    exact iWord_of_fields w

theorem jWord_eq_iff (op : BitVec 6) (target : BitVec 26) (w : Word) :
    jWord op target = w ↔ opOf w = op ∧ targetOf w = target := by
  constructor
  · rintro rfl
    simp
  · rintro ⟨rfl, rfl⟩
    exact jWord_of_fields w

theorem codeWord_eq_iff (code : BitVec 20) (funct : BitVec 6) (w : Word) :
    codeWord code funct = w ↔ opOf w = 0 ∧ codeOf w = code ∧ functOf w = funct := by
  constructor
  · rintro rfl
    simp
  · rintro ⟨hop, rfl, rfl⟩
    exact codeWord_of_fields w hop

theorem copWord_eq_iff (op : BitVec 6) (cofun : BitVec 25) (w : Word) :
    copWord op cofun = w ↔ opOf w = op ∧ coBitOf w = 1 ∧ cofunOf w = cofun := by
  constructor
  · rintro rfl
    simp
  · rintro ⟨rfl, hco, rfl⟩
    exact copWord_of_fields w hco

/-! ### The reserved opcodes (R88) -/

/-- The undefined major opcodes. -/
def reservedOps : List (BitVec 6) :=
  [0x14, 0x15, 0x16, 0x17, 0x18, 0x19, 0x1A, 0x1B, 0x1C, 0x1D, 0x1E, 0x1F, 0x27, 0x2C, 0x2D, 0x2F, 0x34, 0x35, 0x36, 0x37,
    0x3C, 0x3D, 0x3E, 0x3F]

/-- The undefined minor opcodes of SPECIAL. -/
def reservedFuncts : List (BitVec 6) :=
  [0x01, 0x05, 0x0A, 0x0B, 0x0E, 0x0F, 0x14, 0x15, 0x16, 0x17, 0x1C, 0x1D, 0x1E, 0x1F, 0x28, 0x29, 0x2C, 0x2D, 0x2E, 0x2F,
    0x30, 0x31, 0x32, 0x33, 0x34, 0x35, 0x36, 0x37, 0x38, 0x39, 0x3A, 0x3B, 0x3C, 0x3D, 0x3E, 0x3F]

/-- The major opcodes of R84. -/
def definedOps : List (BitVec 6) :=
  [0x00, 0x01, 0x02, 0x03, 0x04, 0x05, 0x06, 0x07, 0x08, 0x09, 0x0A, 0x0B, 0x0C, 0x0D, 0x0E, 0x0F, 0x10, 0x11, 0x12, 0x13,
    0x20, 0x21, 0x22, 0x23, 0x24, 0x25, 0x26, 0x28, 0x29, 0x2A, 0x2B, 0x2E, 0x30, 0x31, 0x32, 0x33, 0x38, 0x39, 0x3A, 0x3B]

/-- The minor opcodes of R85. -/
def definedFuncts : List (BitVec 6) :=
  [0x00, 0x02, 0x03, 0x04, 0x06, 0x07, 0x08, 0x09, 0x0C, 0x0D, 0x10, 0x11, 0x12, 0x13, 0x18, 0x19, 0x1A, 0x1B, 0x20, 0x21,
    0x22, 0x23, 0x24, 0x25, 0x26, 0x27, 0x2A, 0x2B]

/-- R84 and R88 share out the major opcodes. -/
theorem mem_reservedOps_or : ∀ op : BitVec 6, op ∈ reservedOps ∨ op ∈ definedOps := by decide

/-- R85 and R88 share out the minor opcodes. -/
theorem mem_reservedFuncts_or : ∀ funct : BitVec 6, funct ∈ reservedFuncts ∨ funct ∈ definedFuncts := by decide

/-- The word has neither a reserved major nor a reserved minor opcode. -/
def Unreserved (w : Word) : Prop :=
  opOf w ∉ reservedOps ∧ ¬(opOf w = 0 ∧ functOf w ∈ reservedFuncts)

theorem unreserved_of_op {w : Word} {op : BitVec 6} (hop : opOf w = op) (hmem : op ∉ reservedOps) (hne : op ≠ 0) :
    Unreserved w := by
  subst hop
  exact ⟨hmem, fun h => hne h.1⟩

theorem unreserved_of_funct {w : Word} {funct : BitVec 6} (hop : opOf w = 0) (hfunct : functOf w = funct)
    (hmem : funct ∉ reservedFuncts) : Unreserved w := by
  subst hfunct
  exact ⟨by rw [hop]; decide, fun h => hmem h.2⟩

/-! ### What the decoder can answer -/

/-- The answers that R83 allows for a word: one of the two reserved sets, an instruction that encodes as the word, or, for a
word of neither set, nothing. -/
inductive DecodesTo (w : Word) : Decoded → Prop
  | major (h : opOf w ∈ reservedOps) : DecodesTo w .reservedMajor
  | minor (hop : opOf w = 0) (h : functOf w ∈ reservedFuncts) : DecodesTo w .reservedMinor
  | instr {i : Instr} (h : Unreserved w) (hwf : i.wellFormed = true) (he : encode i = w) : DecodesTo w (.instr i)
  | unlisted (h : Unreserved w) : DecodesTo w .unlisted

namespace DecodesTo

theorem instr_iff {w : Word} {i : Instr} :
    DecodesTo w (.instr i) ↔ Unreserved w ∧ i.wellFormed = true ∧ encode i = w :=
  ⟨fun | .instr h hwf he => ⟨h, hwf, he⟩, fun ⟨h, hwf, he⟩ => .instr h hwf he⟩

theorem unlisted_iff {w : Word} : DecodesTo w .unlisted ↔ Unreserved w :=
  ⟨fun | .unlisted h => h, .unlisted⟩

theorem strict_iff {w : Word} {zeros : Bool} {i : Instr} :
    DecodesTo w (strict zeros i) ↔ Unreserved w ∧ (zeros = true → i.wellFormed = true ∧ encode i = w) := by
  cases zeros with
  | false => simpa [strict] using unlisted_iff
  | true => simpa [strict] using instr_iff

theorem reservedMajor_iff {w : Word} {d : Decoded} (h : DecodesTo w d) : d = .reservedMajor ↔ opOf w ∈ reservedOps := by
  cases h with
  | major h => simp [h]
  | minor hop _ => simp [hop, reservedOps]
  | instr h | unlisted h => simp [h.1]

theorem reservedMinor_iff {w : Word} {d : Decoded} (h : DecodesTo w d) :
    d = .reservedMinor ↔ opOf w = 0 ∧ functOf w ∈ reservedFuncts := by
  cases h with
  | major h =>
    have hne : opOf w ≠ 0 := fun hop => absurd (hop ▸ h) (by decide)
    exact iff_of_false Decoded.noConfusion fun h => hne h.1
  | minor hop h => exact iff_of_true rfl ⟨hop, h⟩
  | instr h | unlisted h => exact iff_of_false Decoded.noConfusion h.2

end DecodesTo

section Answers

variable {w : Word}

theorem decodeSpecial_answer (hop : opOf w = 0) : DecodesTo w (decodeSpecial w) := by
  unfold decodeSpecial
  split
  case h_29 =>
    exact .minor hop <| (mem_reservedFuncts_or (functOf w)).resolve_right (by simp_all [definedFuncts])
  all_goals
    next hfunct =>
    have hfree : Unreserved w := unreserved_of_funct hop hfunct (by decide)
    simp +contextual [DecodesTo.strict_iff, DecodesTo.instr_iff, hfree, Instr.wellFormed, encode, rWord_eq_iff,
      codeWord_eq_iff, hop, hfunct]

theorem decodeBcond_answer (hop : opOf w = 1) : DecodesTo w (decodeBcond w) := by
  have hfree : Unreserved w := unreserved_of_op hop (by decide) (by decide)
  unfold decodeBcond
  split <;> simp [DecodesTo.instr_iff, DecodesTo.unlisted_iff, Instr.wellFormed, encode, iWord_eq_iff, *]

/-- The five named operations are found before COP0, so COP0 is left with the other values of `cofun` (R87). -/
theorem decodeCofun0_spec (cofun : BitVec 25) :
    (decodeCofun0 cofun).wellFormed = true ∧ encode (decodeCofun0 cofun) = copWord 0x10 cofun := by
  unfold decodeCofun0
  split
  case h_6 => simp_all [Instr.wellFormed, namedCofun, encode]
  all_goals exact ⟨rfl, rfl⟩

/-- The constructors that the decoder gives the forms of the coprocessor with opcode `op` (R87). -/
structure CopForms (op : BitVec 6) (mf cf mt ct : RegIdx → RegIdx → Instr) (bf bt : BitVec 16 → Instr)
    (cop : BitVec 25 → Instr) : Prop where
  mf : ∀ rt rd, (mf rt rd).wellFormed = true ∧ encode (mf rt rd) = rWord op 0x00 rt rd 0 0
  cf : ∀ rt rd, (cf rt rd).wellFormed = true ∧ encode (cf rt rd) = rWord op 0x02 rt rd 0 0
  mt : ∀ rt rd, (mt rt rd).wellFormed = true ∧ encode (mt rt rd) = rWord op 0x04 rt rd 0 0
  ct : ∀ rt rd, (ct rt rd).wellFormed = true ∧ encode (ct rt rd) = rWord op 0x06 rt rd 0 0
  bf : ∀ offset, (bf offset).wellFormed = true ∧ encode (bf offset) = iWord op 0x08 0x00 offset
  bt : ∀ offset, (bt offset).wellFormed = true ∧ encode (bt offset) = iWord op 0x08 0x01 offset
  cop : ∀ cofun, (cop cofun).wellFormed = true ∧ encode (cop cofun) = copWord op cofun

section CopForms

variable {op : BitVec 6} {mf cf mt ct : RegIdx → RegIdx → Instr} {bf bt : BitVec 16 → Instr} {cop : BitVec 25 → Instr}

theorem CopForms.decodeCopMove_answer (h : CopForms op mf cf mt ct bf bt cop) (hop : opOf w = op) (hfree : Unreserved w) :
    DecodesTo w (decodeCopMove w mf cf mt ct bf bt) := by
  unfold decodeCopMove
  split
  case h_5 => split <;> simp [DecodesTo.instr_iff, DecodesTo.unlisted_iff, h.bf, h.bt, iWord_eq_iff, *]
  all_goals
    simp +contextual [DecodesTo.strict_iff, DecodesTo.unlisted_iff, h.mf, h.cf, h.mt, h.ct, rWord_eq_iff, *]

/-- Bit 25 tells the operation from the moves and branches. -/
theorem CopForms.answer (h : CopForms op mf cf mt ct bf bt cop) (hop : opOf w = op)
    (hmem : op ∉ reservedOps := by decide) (hne : op ≠ 0 := by decide) :
    DecodesTo w (if coBitOf w = 1 then .instr (cop (cofunOf w)) else decodeCopMove w mf cf mt ct bf bt) := by
  have hfree : Unreserved w := unreserved_of_op hop hmem hne
  obtain ⟨hwf, he⟩ := h.cop (cofunOf w)
  split
  case isTrue hco => exact .instr hfree hwf (he.trans ((copWord_eq_iff op _ w).mpr ⟨hop, hco, rfl⟩))
  case isFalse => exact h.decodeCopMove_answer hop hfree

end CopForms

theorem copForms0 : CopForms 0x10 .mfc0 .cfc0 .mtc0 .ctc0 .bc0f .bc0t decodeCofun0 := by
  constructor
  case cop => exact decodeCofun0_spec
  all_goals intros; exact ⟨rfl, rfl⟩

theorem copForms1 : CopForms 0x11 .mfc1 .cfc1 .mtc1 .ctc1 .bc1f .bc1t .cop1 := by
  constructor <;> intros <;> exact ⟨rfl, rfl⟩

theorem copForms2 : CopForms 0x12 .mfc2 .cfc2 .mtc2 .ctc2 .bc2f .bc2t .cop2 := by
  constructor <;> intros <;> exact ⟨rfl, rfl⟩

theorem copForms3 : CopForms 0x13 .mfc3 .cfc3 .mtc3 .ctc3 .bc3f .bc3t .cop3 := by
  constructor <;> intros <;> exact ⟨rfl, rfl⟩

end Answers

/-- Everything the decoder can answer, by the major opcode. -/
theorem decodeWord_answer (w : Word) : DecodesTo w (decodeWord w) := by
  unfold decodeWord
  split
  case h_1 hop => exact decodeSpecial_answer hop
  case h_2 hop => exact decodeBcond_answer hop
  case h_17 hop => exact copForms0.answer hop
  case h_18 hop => exact copForms1.answer hop
  case h_19 hop => exact copForms2.answer hop
  case h_20 hop => exact copForms3.answer hop
  case h_41 =>
    exact .major <| (mem_reservedOps_or (opOf w)).resolve_right (by simp_all [definedOps])
  all_goals
    next hop =>
    have hfree : Unreserved w := unreserved_of_op hop (by decide) (by decide)
    simp +contextual [DecodesTo.strict_iff, DecodesTo.instr_iff, hfree, Instr.wellFormed, encode, iWord_eq_iff,
      jWord_eq_iff, hop]

/-! ### The decoder on an encoding -/

theorem decodeCofun0_of_wellFormed {cofun : BitVec 25} (h : (Instr.cop0 cofun).wellFormed = true) :
    decodeCofun0 cofun = .cop0 cofun := by
  unfold decodeCofun0
  split
  case h_6 => rfl
  all_goals cases h

/-- The fields of an encoding are those that it was made of, so the decoder goes the way of the instruction's row. COP0 is the
one row that others stand before, and needs `wellFormed`. -/
theorem decodeWord_encode {i : Instr} (h : i.wellFormed = true) : decodeWord (encode i) = .instr i := by
  cases i with
  | cop0 => simp [encode, decodeWord, decodeCop0, decodeCofun0_of_wellFormed h]
  | tlbr | tlbwi | tlbwr | tlbp | rfe => simp [encode, decodeWord, decodeCop0, decodeCofun0]
  | mfc0 | mtc0 | cfc0 | ctc0 | bc0f | bc0t => simp [encode, decodeWord, decodeCop0, decodeCopMove, strict]
  | mfc1 | mtc1 | cfc1 | ctc1 | bc1f | bc1t | cop1 => simp [encode, decodeWord, decodeCop1, decodeCopMove, strict]
  | mfc2 | mtc2 | cfc2 | ctc2 | bc2f | bc2t | cop2 => simp [encode, decodeWord, decodeCop2, decodeCopMove, strict]
  | mfc3 | mtc3 | cfc3 | ctc3 | bc3f | bc3t | cop3 => simp [encode, decodeWord, decodeCop3, decodeCopMove, strict]
  | bltz | bgez | bltzal | bgezal => simp [encode, decodeWord, decodeBcond]
  | j | jal | beq | bne | blez | bgtz | addi | addiu | slti | sltiu | andi | ori | xori | lui =>
    simp [encode, decodeWord, strict]
  | lb | lh | lwl | lw | lbu | lhu | lwr | sb | sh | swl | sw | swr | lwc0 | swc0 | lwc1 | swc1 | lwc2 | swc2 | lwc3 | swc3 =>
    simp [encode, decodeWord]
  | _ => simp [encode, decodeWord, decodeSpecial, strict]

/-- The bytes of a word, in the order in which they were laid out, are decoded as the word (R56). -/
theorem decodeBytes_bytesOfWord (big : Bool) (w : Word) (rest : List Byte) :
    decodeBytes big (bytesOfWord big w ++ rest) = (decodeWord w, rest) := by
  cases big with
  | false => exact congrArg (fun v => (decodeWord v, rest)) (wordOfBytes_bytesLsbFirst w)
  | true => exact congrArg (fun v => (decodeWord v, rest)) (wordOfBytes_bytesMsbFirst w)

/-- Settles O1: a word's fields and its bytes are read back as they were laid. -/
theorem decodeOfEncode : Obligations.DecodeOfEncode := by
  intro i hwf
  have hword : decodeWord (encode i) = .instr i := decodeWord_encode hwf
  refine ⟨hword, fun big rest => ?_⟩
  rw [encodeBytes, decodeBytes_bytesOfWord, hword]

/-- Settles O2, by what the decoder can answer. -/
theorem encodeOfDecode : Obligations.EncodeOfDecode := by
  intro w i hdec
  have h : DecodesTo w (.instr i) := hdec ▸ decodeWord_answer w
  exact (DecodesTo.instr_iff.mp h).2

/-- Settles O3, by what the decoder can answer. -/
theorem reservedOpcodes : Obligations.ReservedOpcodes := fun w =>
  ⟨(decodeWord_answer w).reservedMajor_iff, (decodeWord_answer w).reservedMinor_iff⟩

/-! ### The rows of the opcode table, tested field by field -/

/-- The instruction of the first of some rows of the table that the word matches. -/
def firstRow (w : Word) (rows : List OpcodeRow) : Option Instr :=
  (rows.find? fun r => w &&& r.mask == r.value).map OpcodeRow.instr

theorem instrOfTable_eq (w : Word) : instrOfTable w = firstRow w (opcodeRows w) := rfl

@[simp] theorem firstRow_nil (w : Word) : firstRow w [] = none := rfl

theorem firstRow_cons (w mask value : Word) (i : Instr) (rows : List OpcodeRow) :
    firstRow w (⟨mask, value, i⟩ :: rows) = if w &&& mask = value then some i else firstRow w rows := by
  simp only [firstRow, List.find?_cons]
  split <;> simp_all

theorem firstRow_append (w : Word) (rows more : List OpcodeRow) :
    firstRow w (rows ++ more) = (firstRow w rows).or (firstRow w more) := by
  simp [firstRow, List.find?_append, Option.map_or]

/-- No row matches where every row compares the whole of `op`, with values that have a property which the word's lacks. -/
theorem firstRow_eq_none {w : Word} {rows : List OpcodeRow} {P : BitVec 6 → Prop}
    (h : ∀ r ∈ rows, r.mask.extractLsb' 26 6 = BitVec.allOnes 6 ∧ P (r.value.extractLsb' 26 6)) (hop : ¬P (opOf w)) :
    firstRow w rows = none := by
  rw [firstRow, Option.map_eq_none_iff, List.find?_eq_none]
  intro r hr hmatch
  obtain ⟨hmask, hvalue⟩ := h r hr
  have hfield : opOf w = r.value.extractLsb' 26 6 := extractLsb'_of_match (beq_iff_eq.mp hmatch) 26 6 hmask
  exact hop (hfield ▸ hvalue)

theorem eq_iff_fields (v w : Word) :
    v = w ↔ opOf v = opOf w ∧ rsOf v = rsOf w ∧ rtOf v = rtOf w ∧ rdOf v = rdOf w ∧ shamtOf v = shamtOf w ∧
      functOf v = functOf w := by
  rw [← rWord_eq_iff, rWord_of_fields, eq_comm]

theorem eq_iff_cofun (v w : Word) : v = w ↔ opOf v = opOf w ∧ coBitOf v = coBitOf w ∧ cofunOf v = cofunOf w := by
  simp only [opOf, coBitOf, cofunOf, ← BitVec.toNat_inj, BitVec.extractLsb'_toNat, Nat.shiftRight_eq_div_pow]
  omega

/-- The test of a row as tests of the fields of an R-type word. -/
theorem match_iff_fields (w mask value : Word) :
    w &&& mask = value ↔
      opOf w &&& mask.extractLsb' 26 6 = value.extractLsb' 26 6 ∧
        rsOf w &&& mask.extractLsb' 21 5 = value.extractLsb' 21 5 ∧
        rtOf w &&& mask.extractLsb' 16 5 = value.extractLsb' 16 5 ∧
        rdOf w &&& mask.extractLsb' 11 5 = value.extractLsb' 11 5 ∧
        shamtOf w &&& mask.extractLsb' 6 5 = value.extractLsb' 6 5 ∧
        functOf w &&& mask.extractLsb' 0 6 = value.extractLsb' 0 6 := by
  rw [eq_iff_fields]
  simp [opOf, rsOf, rtOf, rdOf, shamtOf, functOf, BitVec.extractLsb'_and]

/-- The test of a row as tests of the fields of a coprocessor operation. -/
theorem match_iff_cofun (w mask value : Word) :
    w &&& mask = value ↔
      opOf w &&& mask.extractLsb' 26 6 = value.extractLsb' 26 6 ∧
        coBitOf w &&& mask.extractLsb' 25 1 = value.extractLsb' 25 1 ∧
        cofunOf w &&& mask.extractLsb' 0 25 = value.extractLsb' 0 25 := by
  rw [eq_iff_cofun]
  simp [opOf, coBitOf, cofunOf, BitVec.extractLsb'_and]

theorem and_ones5 (x : BitVec 5) : x &&& 31#5 = x := BitVec.and_allOnes
theorem and_ones6 (x : BitVec 6) : x &&& 63#6 = x := BitVec.and_allOnes
theorem and_ones25 (x : BitVec 25) : x &&& 33554431#25 = x := BitVec.and_allOnes

/-- The table writes the fields of the word out. -/
theorem extractLsb'_eq_field (w : Word) :
    w.extractLsb' 21 5 = rsOf w ∧ w.extractLsb' 16 5 = rtOf w ∧ w.extractLsb' 11 5 = rdOf w ∧
      w.extractLsb' 6 5 = shamtOf w ∧ w.extractLsb' 6 20 = codeOf w ∧ w.extractLsb' 0 16 = immOf w ∧
      w.extractLsb' 0 26 = targetOf w ∧ w.extractLsb' 0 25 = cofunOf w :=
  ⟨rfl, rfl, rfl, rfl, rfl, rfl, rfl, rfl⟩

/-! ### The decoder against the table, by the groups of its rows -/

/-- The instruction that was decoded. -/
def Decoded.instr? : Decoded → Option Instr
  | .instr i => some i
  | .reservedMajor | .reservedMinor | .unlisted | .truncated => none

namespace Decoded

theorem eq_instr_iff (d : Decoded) (i : Instr) : d = .instr i ↔ d.instr? = some i := by
  cases d <;> simp [instr?]

@[simp] theorem instr?_instr (i : Instr) : (Decoded.instr i).instr? = some i := rfl
@[simp] theorem instr?_unlisted : Decoded.unlisted.instr? = none := rfl
@[simp] theorem instr?_reservedMajor : Decoded.reservedMajor.instr? = none := rfl
@[simp] theorem instr?_reservedMinor : Decoded.reservedMinor.instr? = none := rfl

@[simp] theorem instr?_strict (zeros : Bool) (i : Instr) :
    (strict zeros i).instr? = if zeros = true then some i else none := by
  cases zeros <;> rfl

end Decoded

section Groups

variable {w : Word}

theorem specialRows_none_of_ne (hop : opOf w ≠ 0) : firstRow w (specialRows w) = none :=
  firstRow_eq_none (P := (· = 0)) (by simp [specialRows]) hop

theorem immediateRows_none_of_not (hop : ¬(0 < opOf w ∧ opOf w < 0x10)) : firstRow w (immediateRows w) = none :=
  firstRow_eq_none (P := fun op => 0 < op ∧ op < 0x10) (by simp [immediateRows]) hop

theorem cop0Rows_none_of_ne (hop : opOf w ≠ 0x10) : firstRow w (cop0Rows w) = none :=
  firstRow_eq_none (P := (· = 0x10)) (by simp [cop0Rows]) hop

theorem copRows_none_of_not (hop : ¬(0x11 ≤ opOf w ∧ opOf w ≤ 0x13)) : firstRow w (copRows w) = none :=
  firstRow_eq_none (P := fun op => 0x11 ≤ op ∧ op ≤ 0x13) (by simp [copRows]) hop

theorem memoryRows_none_of_not (hop : ¬0x14 ≤ opOf w) : firstRow w (memoryRows w) = none :=
  firstRow_eq_none (P := fun op => 0x14 ≤ op) (by simp [memoryRows]) hop

theorem decodeWord_eq_specialRows (hop : opOf w = 0) : (decodeWord w).instr? = firstRow w (specialRows w) := by
  have hdec : decodeWord w = decodeSpecial w := by simp [decodeWord, hop]
  rw [hdec]
  unfold decodeSpecial specialRows
  simp only [extractLsb'_eq_field]
  simp only [firstRow_cons, match_iff_fields, BitVec.ofNat_eq_ofNat, BitVec.reduceExtractLsb', BitVec.and_zero, and_ones5,
    and_ones6, hop, true_and]
  split
  case h_29 => simp_all
  all_goals simp [*, and_assoc]

theorem decodeWord_eq_immediateRows (hop : 0 < opOf w ∧ opOf w < 0x10) :
    (decodeWord w).instr? = firstRow w (immediateRows w) := by
  unfold decodeWord decodeBcond immediateRows
  simp only [extractLsb'_eq_field]
  simp only [firstRow_cons, match_iff_fields, BitVec.ofNat_eq_ofNat, BitVec.reduceExtractLsb', BitVec.and_zero, and_ones5,
    and_ones6, true_and, and_true]
  split
  case h_2 => split <;> simp_all
  all_goals simp_all

theorem decodeWord_eq_memoryRows (hop : 0x14 ≤ opOf w) : (decodeWord w).instr? = firstRow w (memoryRows w) := by
  unfold decodeWord memoryRows
  simp only [extractLsb'_eq_field]
  simp only [firstRow_cons, match_iff_fields, BitVec.ofNat_eq_ofNat, BitVec.reduceExtractLsb', BitVec.and_zero, and_ones6,
    and_true]
  split <;> simp_all

/-- Bit 25 in the terms of the rows' masks on `rs`. -/
theorem coBitOf_eq_one_iff (w : Word) : coBitOf w = 1 ↔ rsOf w &&& 16#5 = 16#5 := by
  have h : coBitOf w = (rsOf w).extractLsb' 4 1 := by
    rw [← rWord_of_fields w]
    simp
  rw [h]
  generalize rsOf w = rs
  decide +revert

theorem decodeWord_eq_cop0Rows (hop : opOf w = 0x10) : (decodeWord w).instr? = firstRow w (cop0Rows w) := by
  have hdec : decodeWord w = decodeCop0 w := by simp [decodeWord, hop]
  rw [hdec]
  unfold decodeCop0 cop0Rows
  simp only [extractLsb'_eq_field]
  split
  case isTrue hco =>
    simp only [firstRow_cons, match_iff_cofun, BitVec.ofNat_eq_ofNat, BitVec.reduceExtractLsb', and_ones25, hop, hco,
      decodeCofun0]
    split
    case h_6 => simp_all
    all_goals simp [*]
  case isFalse hco =>
    rw [coBitOf_eq_one_iff] at hco
    have hrs : ¬rsOf w = 16#5 := fun h => hco (by rw [h]; rfl)
    simp only [firstRow_cons, match_iff_fields, BitVec.ofNat_eq_ofNat, BitVec.reduceExtractLsb', BitVec.and_zero, and_ones5,
      and_ones6, hop, true_and, hco, hrs, decodeCopMove]
    split
    case h_5 => split <;> simp_all
    case h_6 => simp_all
    all_goals simp [*]

theorem decodeWord_eq_copRows (hop : 0x11 ≤ opOf w ∧ opOf w ≤ 0x13) : (decodeWord w).instr? = firstRow w (copRows w) := by
  have hops : opOf w = 0x11 ∨ opOf w = 0x12 ∨ opOf w = 0x13 := by bv_omega
  unfold decodeWord decodeCop1 decodeCop2 decodeCop3 copRows
  simp only [extractLsb'_eq_field]
  by_cases hco : coBitOf w = 1
  · rcases hops with hop | hop | hop <;> simp [firstRow_cons, match_iff_cofun, hop, hco]
  · simp only [if_neg hco, decodeCopMove]
    rw [coBitOf_eq_one_iff] at hco
    rcases hops with hop | hop | hop <;>
    · simp only [firstRow_cons, match_iff_fields, BitVec.ofNat_eq_ofNat, BitVec.reduceExtractLsb', BitVec.and_zero,
        BitVec.reduceEq, and_ones5, and_ones6, hop, true_and, false_and, if_false, hco]
      split
      case h_5 => split <;> simp_all
      case h_6 => simp_all
      all_goals simp [*]

end Groups

/-- The decoder and the table agree: the groups of rows differ in `op`. -/
theorem instrOfTable_eq_decodeWord (w : Word) : instrOfTable w = (decodeWord w).instr? := by
  have hops : opOf w = 0 ∨ (0 < opOf w ∧ opOf w < 0x10) ∨ opOf w = 0x10 ∨ (0x11 ≤ opOf w ∧ opOf w ≤ 0x13) ∨
      0x14 ≤ opOf w := by bv_omega
  simp only [instrOfTable_eq, opcodeRows, firstRow_append]
  rcases hops with hop | hop | hop | hop | hop
  · rw [← decodeWord_eq_specialRows hop, immediateRows_none_of_not (by bv_omega), cop0Rows_none_of_ne (by bv_omega),
      copRows_none_of_not (by bv_omega), memoryRows_none_of_not (by bv_omega)]
    simp
  · rw [specialRows_none_of_ne (by bv_omega), ← decodeWord_eq_immediateRows hop, cop0Rows_none_of_ne (by bv_omega),
      copRows_none_of_not (by bv_omega), memoryRows_none_of_not (by bv_omega)]
    simp
  · rw [specialRows_none_of_ne (by bv_omega), immediateRows_none_of_not (by bv_omega), decodeWord_eq_cop0Rows hop,
      copRows_none_of_not (by bv_omega), memoryRows_none_of_not (by bv_omega)]
    simp
  · rw [specialRows_none_of_ne (by bv_omega), immediateRows_none_of_not (by bv_omega),
      cop0Rows_none_of_ne (by bv_omega), ← decodeWord_eq_copRows hop, memoryRows_none_of_not (by bv_omega)]
    simp
  · rw [specialRows_none_of_ne (by bv_omega), immediateRows_none_of_not (by bv_omega),
      cop0Rows_none_of_ne (by bv_omega), copRows_none_of_not (by bv_omega), ← decodeWord_eq_memoryRows hop]
    simp

/-- Settles O4: the decoder answers what the table does, and the ten words are evaluated. -/
theorem sampleWords : Obligations.SampleWords := by
  refine ⟨fun w i => ?_, by decide⟩
  rw [instrOfTable_eq_decodeWord, Decoded.eq_instr_iff]

end Sys2Proof

namespace Sys2Proof.Machine

/-! ### A step that comes to a word without an instruction -/

theorem runWord_reserved {s : State} {w : Word} (h : decodeWord w = .reservedMajor ∨ decodeWord w = .reservedMinor) :
    runWord s w = raise .ri s := by
  unfold runWord
  rcases h with h | h <;> rw [h]

theorem runWord_unlisted {s : State} {w : Word} (h : decodeWord w = .unlisted) :
    runWord s w = .fault (.unlistedEncoding w) := by
  unfold runWord
  rw [h]

/-- Settles O6: the word is looked at before the asynchronous events are. -/
theorem stepOnOtherWords : Obligations.StepOnOtherWords := by
  intro s hf
  have hrun : fetchAndRun s = runWord s.fetched (s.codeAt s.pc) := fetchAndRun_of_fetches hf
  refine ⟨fun hres => step_of_raise hf.toReachesFetch ?_, fun hunlisted => ?_⟩
  · rw [hrun, runWord_reserved hres]
  · rw [step_of_fetch hf.reset hf.held, hrun, runWord_unlisted hunlisted]

end Sys2Proof.Machine
end

section
/-! SUPPORT. Proofs of the statements about loads and stores: the value of a load by the bytes it reads, and the word behind a
store by the bytes it writes. -/

namespace Sys2Proof

/-! ### A word and its bytes -/

/-- The number of the byte that holds bit `i` of a word, counted at rising addresses (20_memory.md R56). -/
def byteOfBit (big : Bool) (i : Nat) : Nat := if big then 3 - i / 8 else i / 8

theorem byteOfBit_true (i : Nat) : byteOfBit true i = 3 - i / 8 := rfl
theorem byteOfBit_false (i : Nat) : byteOfBit false i = i / 8 := rfl

theorem byteOfBit_lt (big : Bool) {i : Nat} (hi : i < 32) : byteOfBit big i < 4 := by
  unfold byteOfBit
  split <;> omega

theorem toNat_append_eq_add {n m : Nat} (x : BitVec n) (y : BitVec m) : (x ++ y).toNat = x.toNat * 2 ^ m + y.toNat := by
  rw [BitVec.toNat_append, ← Nat.shiftLeft_add_eq_or_of_lt y.isLt, Nat.shiftLeft_eq]

/-- The quarters of a word's bits are its four bytes. -/
theorem getLsbD_append_bytes (b3 b2 b1 b0 : Byte) (i : Nat) :
    (b3 ++ b2 ++ b1 ++ b0 : BitVec (8 + 8 + 8 + 8)).getLsbD i =
      if i < 8 then b0.getLsbD i
      else if i < 16 then b1.getLsbD (i - 8)
      else if i < 24 then b2.getLsbD (i - 16)
      else b3.getLsbD (i - 24) := by
  simp only [BitVec.getLsbD_append, Nat.sub_sub]
  grind

/-- Bit `i` of a word in the byte that holds it. -/
theorem getLsbD_wordOfBytes (big : Bool) (f : Nat → Byte) {i : Nat} (hi : i < 32) :
    (wordOfBytes big (f 0) (f 1) (f 2) (f 3)).getLsbD i = (f (byteOfBit big i)).getLsbD (i % 8) := by
  have hq : i / 8 = 0 ∨ i / 8 = 1 ∨ i / 8 = 2 ∨ i / 8 = 3 := by omega
  cases big with
  | true =>
    refine (getLsbD_append_bytes (f 0) (f 1) (f 2) (f 3) i).trans ?_
    rw [byteOfBit_true]
    grind
  | false =>
    refine (getLsbD_append_bytes (f 3) (f 2) (f 1) (f 0) i).trans ?_
    rw [byteOfBit_false]
    grind

@[simp] theorem length_bytesOfWord (big : Bool) (v : Word) : (bytesOfWord big v).length = 4 := by cases big <;> rfl

/-- Bit `i` of a word in the list of its bytes: in the byte that `byteOfBit` says. -/
theorem getLsbD_getElem_bytesOfWord (big : Bool) (v : Word) {q m i : Nat} (hi : i < 32) (hq : q = byteOfBit big i)
    (hm : m = i % 8) (h : q < (bytesOfWord big v).length) : ((bytesOfWord big v)[q]).getLsbD m = v.getLsbD i := by
  have hbytes : wordOfBytes big ((bytesOfWord big v).getD 0 0) ((bytesOfWord big v).getD 1 0)
      ((bytesOfWord big v).getD 2 0) ((bytesOfWord big v).getD 3 0) = v := by
    cases big with
    | true => exact wordOfBytes_bytesMsbFirst v
    | false => exact wordOfBytes_bytesLsbFirst v
  have hbit := getLsbD_wordOfBytes big (fun q => (bytesOfWord big v).getD q 0) hi
  rw [hbytes, ← hq, ← hm, List.getD_eq_getElem _ _ h] at hbit
  exact hbit.symm

/-- The word that SWL leaves (R112), bit by bit: the register's bits from `sh` on at the low end, and the word's own above them. -/
theorem getLsbD_shiftRight_merge (R W : Word) (sh : Nat) {i : Nat} (hi : i < 32) :
    ((R >>> sh) ||| (W &&& ~~~((0xFFFFFFFF : Word) >>> sh))).getLsbD i =
      if i + sh < 32 then R.getLsbD (i + sh) else W.getLsbD i := by
  have hones : ((0xFFFFFFFF : Word) >>> sh).getLsbD i = decide (i + sh < 32) := by
    rw [BitVec.getLsbD_ushiftRight, Nat.add_comm]
    exact BitVec.getLsbD_allOnes
  rw [BitVec.getLsbD_or, BitVec.getLsbD_and, BitVec.getLsbD_not, BitVec.getLsbD_ushiftRight, hones, Nat.add_comm sh i]
  by_cases h : i + sh < 32
  · simp [h]
  · simp [h, hi, BitVec.getLsbD_of_ge R (i + sh) (by omega)]

/-- The word that SWR leaves (R113), bit by bit: below bit `sh` the word's own, from there on the register's. -/
theorem getLsbD_shiftLeft_merge (R W : Word) {sh i : Nat} (hsh : sh < 32) (hi : i < 32) :
    ((R <<< sh) ||| (W &&& (((1 : Word) <<< sh) - 1))).getLsbD i =
      if sh ≤ i then R.getLsbD (i - sh) else W.getLsbD i := by
  have hpow : ((1 : Word) <<< sh).toNat = 2 ^ sh := by
    rw [BitVec.toNat_shiftLeft, Nat.shiftLeft_eq]
    exact (congrArg (· % 2 ^ 32) (Nat.one_mul _)).trans (Nat.mod_eq_of_lt (Nat.pow_lt_pow_right (by decide) hsh))
  have hmask : (((1 : Word) <<< sh) - 1).getLsbD i = decide (i < sh) := by
    have hle : (1 : Word) ≤ (1 : Word) <<< sh := by
      rw [BitVec.le_def, hpow]
      exact Nat.one_le_two_pow
    rw [BitVec.getLsbD, BitVec.toNat_sub_of_le hle, hpow]
    exact Nat.testBit_two_pow_sub_one sh i
  rw [BitVec.getLsbD_or, BitVec.getLsbD_and, BitVec.getLsbD_shiftLeft, hmask]
  by_cases h : sh ≤ i
  · simp [hi, h, Nat.not_lt.mpr h]
  · simp [h, Nat.lt_of_not_le h]

end Sys2Proof

namespace Sys2Proof.Machine

theorem wordAligned_eq_decide (va : Word) : wordAligned va = decide (va.toNat % 4 = 0) := by
  rw [Bool.eq_iff_iff, wordAligned_iff, decide_eq_true_iff]

theorem halfAligned_eq_decide (va : Word) : halfAligned va = decide (va.toNat % 2 = 0) := by
  rw [Bool.eq_iff_iff, halfAligned_iff, decide_eq_true_iff]

/-! ### Loads -/

theorem halfAt_toNat (s : State) (va : Word) :
    (s.halfAt va).toNat =
      if s.params.bigEndian then (s.byteAt va).toNat * 256 + (s.byteAt (va + 1)).toNat
      else (s.byteAt (va + 1)).toNat * 256 + (s.byteAt va).toNat := by
  unfold State.halfAt
  split <;> exact toNat_append_eq_add _ _

theorem wordAt_toNat (s : State) (va : Word) :
    (s.wordAt va).toNat =
      if s.params.bigEndian then
        (((s.byteAt va).toNat * 256 + (s.byteAt (va + 1)).toNat) * 256 + (s.byteAt (va + 2)).toNat) * 256 +
          (s.byteAt (va + 3)).toNat
      else
        (((s.byteAt (va + 3)).toNat * 256 + (s.byteAt (va + 2)).toNat) * 256 + (s.byteAt (va + 1)).toNat) * 256 +
          (s.byteAt va).toNat := by
  unfold State.wordAt wordOfBytes
  split <;> exact (toNat_append_eq_add _ _).trans (by rw [toNat_append_eq_add, toNat_append_eq_add]; rfl)

/-- An instruction that is a load of an accessible address without a bus error completes with the value of the load. -/
theorem load_completes {s : State} {va : Word} {aligned : Bool} {span : Word × Nat} {rt : RegIdx} {v : Word} {r : Result}
    {P : Word → Prop} (hr : r = loadAccess s va aligned span rt v) (ha : s.accessible va aligned false)
    (hb : ¬s.BusError false span.1 span.2) (hv : P v) : ∃ t v, r = .next t ∧ Loaded s t va rt v ∧ P v := by
  obtain ⟨t, ht, hl⟩ := loadAccess_next rt v ha hb
  exact ⟨t, v, hr.trans ht, hl, hv⟩

/-- Settles O55: the value that each load passes to the shared access. -/
theorem loads : Obligations.Loads := by
  intro s rt base offset va hva
  subst hva
  refine ⟨fun ha hb => ⟨?_, ?_⟩, fun ha hb => ?_, fun ha hb => ?_⟩
  · exact load_completes rfl ha hb (BitVec.toInt_signExtend_of_le (by decide))
  · exact load_completes rfl ha hb (BitVec.toNat_setWidth_of_le (by decide))
  · rw [← halfAligned_eq_decide] at ha
    exact ⟨s.halfAt (s.address base offset), halfAt_toNat s _,
      load_completes rfl ha hb (BitVec.toInt_signExtend_of_le (by decide)),
      load_completes rfl ha hb (BitVec.toNat_setWidth_of_le (by decide))⟩
  · rw [← wordAligned_eq_decide] at ha
    exact load_completes rfl ha hb (wordAt_toNat s _)

/-- The place of an address in its word. -/
theorem lane_cases (va : Word) : va.toNat % 4 = 0 ∨ va.toNat % 4 = 1 ∨ va.toNat % 4 = 2 ∨ va.toNat % 4 = 3 := by omega

/-- What holds of the bytes of LWL and SWL, by the byte order (R58). -/
theorem leftSpan_iff (P : Word → Nat → Prop) (big : Bool) (va : Word) :
    (if big then P va (4 - va.toNat % 4) else P (alignedWord va) (va.toNat % 4 + 1)) ↔
      P (leftSpan big va).1 (leftSpan big va).2 := by
  rw [leftSpan_eq]
  cases big <;> exact Iff.rfl

/-- What holds of the bytes of LWR and SWR (R58). -/
theorem rightSpan_iff (P : Word → Nat → Prop) (big : Bool) (va : Word) :
    (if big then P (alignedWord va) (va.toNat % 4 + 1) else P va (4 - va.toNat % 4)) ↔
      P (rightSpan big va).1 (rightSpan big va).2 := by
  rw [rightSpan_eq]
  cases big <;> exact Iff.rfl

/-- Settles O56: the spans of R58, and the tables lane by lane. -/
theorem unalignedLoads : Obligations.UnalignedLoads := by
  intro s rt base offset va wa W R k hva hwa hW hR hk ha
  subst hva hwa hW hR hk
  have hlane := lane_cases (s.address base offset)
  refine ⟨fun hb => load_completes rfl ha ((leftSpan_iff (¬s.BusError false · ·) _ _).mp hb) ?_,
    fun hb => load_completes rfl ha ((rightSpan_iff (¬s.BusError false · ·) _ _).mp hb) ?_⟩
  · rcases hlane with h | h | h | h <;> cases s.params.bigEndian <;> simp [lwlMerge, laneOf_toNat, alignedWord, h]
  · rcases hlane with h | h | h | h <;> cases s.params.bigEndian <;>
      simp [lwrMerge, laneOf_toNat, alignedWord, h, BitVec.or_comm]

/-! ### What a load reads behind a store -/

/-- The state behind a store at `va` of the bytes `bs` from `first` on. -/
abbrev State.afterStore (s : State) (va first : Word) (bs : List Byte) : State :=
  ((s.postDataDebug va true).store first bs).finish

/-- An instruction that is a store to an accessible address completes. -/
theorem store_completes {s : State} {o : StoreOp} {n : Nat} {r : Result} {P : State → Prop} (hr : r = storeAccess s o)
    (ha : s.accessible o.va o.aligned true) (hn : o.bytes.length = n) (hP : P (s.afterStore o.va o.first o.bytes)) :
    ∃ t, r = .next t ∧ Stored s t o.va o.first n ∧ P t :=
  ⟨_, hr.trans (storeAccess_next o ha), hn ▸ store_spec s o.va o.first o.bytes, hP⟩

/-- A byte whose cell a store does not name reads as before, also where it was open. -/
theorem Stored.readByte_eq {s t : State} {va first : Word} {n : Nat} (h : Stored s t va first n) (kind : Access) {a : Word}
    (ha : ∀ j < n, s.cellOf a ≠ s.cellOf (first + BitVec.ofNat 32 j)) : t.readByte kind a = s.readByte kind a := by
  obtain ⟨hbyte, hfailed⟩ := h.keepsByte ha
  have hcell : t.cellOf a = s.cellOf a := by rw [State.cellOf, h.outside.params]; rfl
  have hregion : t.regionOf a = s.regionOf a := by rw [State.regionOf, hcell, h.outside.params]; rfl
  have hopen : t.failed.contains (s.cellOf a) = s.failed.contains (s.cellOf a) := by
    rw [Bool.eq_iff_iff, List.contains_iff_mem, List.contains_iff_mem, hfailed]
  rw [State.readByte, State.readByte, hregion, hcell, hopen, hbyte, h.outside.draws]

/-- Bit `i` of a word in memory. -/
theorem State.getLsbD_wordAt (s : State) (wa : Word) {i : Nat} (hi : i < 32) :
    (s.wordAt wa).getLsbD i =
      (s.byteAt (wa + BitVec.ofNat 32 (byteOfBit s.params.bigEndian i))).getLsbD (i % 8) := by
  have hbit := getLsbD_wordOfBytes s.params.bigEndian (fun p => s.byteAt (wa + BitVec.ofNat 32 p)) hi
  rwa [show wa + BitVec.ofNat 32 0 = wa from BitVec.add_zero wa] at hbit

/-- Bytes number `d` to `d + n - 1` of a register, in the byte order. -/
def byteRun (big : Bool) (v : Word) (d n : Nat) : List Byte := ((bytesOfWord big v).drop d).take n

/-- A run of `n` bytes of a register, its bytes from number `d` on, may be stored without a bus error to the bytes from number `b`
on of the word at `wa`, four cells of writable memory. -/
structure StoresRun (s : State) (wa : Word) (b d n : Nat) : Prop where
  inWord : b + n ≤ 4
  inRegister : d + n ≤ 4
  ram : s.inRam wa 4
  separate : s.separateBytes wa
  noBusError : ¬s.BusError true (wa + BitVec.ofNat 32 b) n

theorem length_byteRun (big : Bool) (v : Word) {d n : Nat} (h : d + n ≤ 4) : (byteRun big v d n).length = n := by
  rw [byteRun, List.length_take, List.length_drop, length_bytesOfWord]
  omega

theorem getElem_byteRun (big : Bool) (v : Word) {d n q : Nat} (h : d + n ≤ 4) (hq : q < n) :
    (byteRun big v d n)[q]'(by rw [length_byteRun big v h]; exact hq) =
      (bytesOfWord big v)[d + q]'(by rw [length_bytesOfWord]; omega) := by
  simp [byteRun]

theorem add_ofNat_add (wa : Word) (b j : Nat) :
    wa + BitVec.ofNat 32 b + BitVec.ofNat 32 j = wa + BitVec.ofNat 32 (b + j) := by
  rw [BitVec.add_assoc, ← BitVec.ofNat_add]

namespace StoresRun

variable {s : State} {wa : Word} {b d n : Nat} (h : StoresRun s wa b d n) (va v : Word)
include h

/-- The bytes in the span are the register's. -/
theorem byteAt_stored {q : Nat} (hq : q < n) :
    (s.afterStore va (wa + BitVec.ofNat 32 b) (byteRun s.params.bigEndian v d n)).byteAt (wa + BitVec.ofNat 32 (b + q)) =
      (bytesOfWord s.params.bigEndian v)[d + q]'(by
        have := h.inRegister
        rw [length_bytesOfWord]; omega) := by
  have hlen := length_byteRun s.params.bigEndian v h.inRegister
  have hword := h.inWord
  have hread := store_readByte s va (wa + BitVec.ofNat 32 b) (byteRun s.params.bigEndian v d n) (hlen.symm ▸ h.noBusError)
    (fun j hj => by
      rw [add_ofNat_add]
      exact h.ram _ (by omega))
    .data q (by omega)
    (fun j hj hqj hcell => by
      rw [add_ofNat_add, add_ofNat_add] at hcell
      have := h.separate _ (by omega) _ (by omega) hcell
      omega)
  rw [getElem_byteRun _ _ h.inRegister hq, add_ofNat_add] at hread
  exact hread

/-- The other bytes of the word are its own. -/
theorem byteAt_kept {p : Nat} (hp : p < 4) (hout : ∀ q < n, p ≠ b + q) :
    (s.afterStore va (wa + BitVec.ofNat 32 b) (byteRun s.params.bigEndian v d n)).byteAt (wa + BitVec.ofNat 32 p) =
      s.byteAt (wa + BitVec.ofNat 32 p) := by
  have hlen := length_byteRun s.params.bigEndian v h.inRegister
  have hword := h.inWord
  refine (store_spec s va _ _).readByte_eq .data fun j hj hcell => ?_
  rw [add_ofNat_add] at hcell
  exact hout j (by omega) (h.separate _ hp _ (by omega) hcell)

/-- A bit of the word behind the store that one of the stored bytes holds. -/
theorem getLsbD_stored {i i' q : Nat} (hi : i < 32) (hi' : i' < 32) (hmod : i % 8 = i' % 8) (hq : q < n)
    (hp : byteOfBit s.params.bigEndian i = b + q) (hp' : byteOfBit s.params.bigEndian i' = d + q) :
    ((s.afterStore va (wa + BitVec.ofNat 32 b) (byteRun s.params.bigEndian v d n)).wordAt wa).getLsbD i = v.getLsbD i' := by
  refine (State.getLsbD_wordAt _ wa hi).trans ?_
  show (State.byteAt _ (wa + BitVec.ofNat 32 (byteOfBit s.params.bigEndian i))).getLsbD (i % 8) = _
  rw [hp, h.byteAt_stored va v hq]
  exact getLsbD_getElem_bytesOfWord _ v hi' hp'.symm hmod _

/-- A bit of the word behind the store that none of the stored bytes holds. -/
theorem getLsbD_kept {i : Nat} (hi : i < 32) (hout : ∀ q < n, byteOfBit s.params.bigEndian i ≠ b + q) :
    ((s.afterStore va (wa + BitVec.ofNat 32 b) (byteRun s.params.bigEndian v d n)).wordAt wa).getLsbD i =
      (s.wordAt wa).getLsbD i := by
  refine (State.getLsbD_wordAt _ wa hi).trans ?_
  rw [State.getLsbD_wordAt s wa hi]
  exact congrArg (BitVec.getLsbD · (i % 8)) (h.byteAt_kept va v (byteOfBit_lt _ hi) hout)

/-- Where the stored bytes hold the bits that have a bit of the register `sh` above them, the register shifted right is merged
into the word (R112). -/
theorem wordAt_shiftRight {sh : Nat} (hsh : sh % 8 = 0)
    (hin : ∀ i < 32, i + sh < 32 → ∃ q < n, byteOfBit s.params.bigEndian i = b + q ∧
      byteOfBit s.params.bigEndian (i + sh) = d + q)
    (hout : ∀ i < 32, ¬i + sh < 32 → ∀ q < n, byteOfBit s.params.bigEndian i ≠ b + q) :
    (s.afterStore va (wa + BitVec.ofNat 32 b) (byteRun s.params.bigEndian v d n)).wordAt wa =
      (v >>> sh) ||| (s.wordAt wa &&& ~~~((0xFFFFFFFF : Word) >>> sh)) := by
  refine BitVec.eq_of_getLsbD_eq fun i hi => ?_
  rw [getLsbD_shiftRight_merge _ _ _ hi]
  split
  · next hlt =>
    obtain ⟨q, hq, hp, hp'⟩ := hin i hi hlt
    exact h.getLsbD_stored va v hi hlt (by omega) hq hp hp'
  · next hge => exact h.getLsbD_kept va v hi (hout i hi hge)

/-- Where they hold the bits from `sh` on, the register shifted left is merged into the word (R113). -/
theorem wordAt_shiftLeft {sh : Nat} (hsh : sh % 8 = 0) (hlt : sh < 32)
    (hin : ∀ i < 32, sh ≤ i → ∃ q < n, byteOfBit s.params.bigEndian i = b + q ∧
      byteOfBit s.params.bigEndian (i - sh) = d + q)
    (hout : ∀ i < 32, ¬sh ≤ i → ∀ q < n, byteOfBit s.params.bigEndian i ≠ b + q) :
    (s.afterStore va (wa + BitVec.ofNat 32 b) (byteRun s.params.bigEndian v d n)).wordAt wa =
      (v <<< sh) ||| (s.wordAt wa &&& (((1 : Word) <<< sh) - 1)) := by
  refine BitVec.eq_of_getLsbD_eq fun i hi => ?_
  rw [getLsbD_shiftLeft_merge _ _ hlt hi]
  split
  · next hle =>
    obtain ⟨q, hq, hp, hp'⟩ := hin i hi hle
    exact h.getLsbD_stored va v hi (by omega) (by omega) hq hp hp'
  · next hgt => exact h.getLsbD_kept va v hi (hout i hi hgt)

end StoresRun

/-! ### SB, SH and SW -/

theorem byteRun_last (big : Bool) (v : Word) {d n : Nat} (h : 4 ≤ d + n) : byteRun big v d n = (bytesOfWord big v).drop d :=
  List.take_of_length_le (by
    rw [List.length_drop, length_bytesOfWord]
    omega)

theorem byteRun_word (big : Bool) (v : Word) : byteRun big v 0 4 = bytesOfWord big v :=
  byteRun_last big v (by omega)

/-- A stored byte is read back (R109). -/
theorem byteAt_afterStore_sb {s : State} {va : Word} (v : Word) (hb : ¬s.BusError true va 1) (hr : s.inRam va 1) :
    ((s.afterStore va va (byteBytes v)).byteAt va).toNat = v.toNat % 2 ^ 8 := by
  have hread := store_readByte s va va (byteBytes v) hb hr .data 0 Nat.one_pos
    (fun k hk h0 => absurd (show k < 1 from hk) (by omega))
  rw [BitVec.add_zero] at hread
  rw [State.byteAt, hread]
  exact BitVec.extractLsb'_toNat 0 8 v

@[simp] theorem length_halfBytes (big : Bool) (v : Word) : (halfBytes big v).length = 2 := by cases big <;> rfl

theorem halfBytes_toNat (big : Bool) (v : Word) :
    (if big then ((halfBytes big v)[0]'(by simp)).toNat * 256 + ((halfBytes big v)[1]'(by simp)).toNat
      else ((halfBytes big v)[1]'(by simp)).toNat * 256 + ((halfBytes big v)[0]'(by simp)).toNat) = v.toNat % 2 ^ 16 := by
  have hhigh : (v.extractLsb' 8 8).toNat = v.toNat / 256 % 256 := by
    rw [BitVec.extractLsb'_toNat, Nat.shiftRight_eq_div_pow]
  have hlow : (v.extractLsb' 0 8).toNat = v.toNat % 256 := BitVec.extractLsb'_toNat 0 8 v
  cases big <;>
  · show (v.extractLsb' 8 8).toNat * 256 + (v.extractLsb' 0 8).toNat = _
    omega

/-- A stored halfword is read back (R110). -/
theorem halfAt_afterStore_sh {s : State} {va : Word} (v : Word) (hb : ¬s.BusError true va 2) (hr : s.inRam va 2)
    (hs : s.cellOf va ≠ s.cellOf (va + 1)) :
    ((s.afterStore va va (halfBytes s.params.bigEndian v)).halfAt va).toNat = v.toNat % 2 ^ 16 := by
  have hlen : (halfBytes s.params.bigEndian v).length = 2 := length_halfBytes _ v
  have hb' := hlen.symm ▸ hb
  have hr' := hlen.symm ▸ hr
  have h0 := store_readByte s va va (halfBytes s.params.bigEndian v) hb' hr' .data 0 (by omega) (fun k hk hpos => by
    obtain rfl : k = 1 := by omega
    rw [BitVec.add_zero]
    exact hs)
  have h1 := store_readByte s va va (halfBytes s.params.bigEndian v) hb' hr' .data 1 (by omega) (fun k hk hlt => by omega)
  rw [BitVec.add_zero] at h0
  have hvalue := halfBytes_toNat s.params.bigEndian v
  rw [← h0, ← h1] at hvalue
  exact (halfAt_toNat _ va).trans hvalue

/-- A stored word is read back (R111). -/
theorem wordAt_afterStore_sw {s : State} {va : Word} (v : Word) (hb : ¬s.BusError true va 4) (hr : s.inRam va 4)
    (hs : s.separateBytes va) : (s.afterStore va va (bytesOfWord s.params.bigEndian v)).wordAt va = v := by
  have hva : va + BitVec.ofNat 32 0 = va := BitVec.add_zero va
  have hrun : StoresRun s va 0 0 4 := ⟨by omega, by omega, hr, hs, hva.symm ▸ hb⟩
  refine BitVec.eq_of_getLsbD_eq fun i hi => ?_
  have hbit := hrun.getLsbD_stored va v hi hi rfl (byteOfBit_lt _ hi) (Nat.zero_add _).symm (Nat.zero_add _).symm
  rwa [hva, byteRun_word] at hbit

/-- Behind a store without a bus error to writable memory a fetch reads the word that a load reads. -/
theorem codeAt_afterStore {s : State} {va : Word} {bs : List Byte} (hlen : bs.length = 4) (hb : ¬s.BusError true va 4)
    (hr : s.inRam va 4) : (s.afterStore va va bs).codeAt va = (s.afterStore va va bs).wordAt va := by
  refine State.codeAt_eq_wordAt fun j hj => ⟨?_, ?_⟩
  · show (s.regionOf _).place ≠ .device
    rw [hr j hj]
    decide
  · rw [(store_spec s va va bs).settled (hlen.symm ▸ hb)]
    exact fun hopen => hopen.2 ⟨hr j hj, j, hlen.symm ▸ hj, rfl⟩

/-- Settles O57: the frame of the shared store, and its bytes read back. -/
theorem stores : Obligations.Stores := by
  intro s rt base offset va hva
  subst hva
  have hhalf := length_halfBytes s.params.bigEndian (s.rt rt)
  have hword := length_bytesOfWord s.params.bigEndian (s.rt rt)
  refine ⟨fun ha => ?_, fun ha => ?_, fun ha => ?_⟩
  · exact store_completes (o := s.sbStore rt offset base) rfl ha rfl fun hb hr => byteAt_afterStore_sb _ hb hr
  · rw [← halfAligned_eq_decide] at ha
    exact store_completes (o := s.shStore rt offset base) rfl ha hhalf fun hb hr hs => halfAt_afterStore_sh _ hb hr hs
  · rw [← wordAligned_eq_decide] at ha
    refine store_completes (o := s.swStore rt offset base) rfl ha hword fun hb hr hs => ?_
    have hload := wordAt_afterStore_sw (s.rt rt) hb hr hs
    exact ⟨hload, (codeAt_afterStore hword hb hr).trans hload⟩

/-! ### SWL and SWR -/

theorem alignedWord_add_lane (va : Word) : alignedWord va + BitVec.ofNat 32 (va.toNat % 4) = va := by
  apply BitVec.eq_of_toNat_eq
  rw [BitVec.toNat_add, alignedWord_toNat, BitVec.toNat_ofNat]
  have := va.isLt
  omega

/-- SWL stores the most significant bytes of the register: from `va` to the end of the word, or from its beginning to `va`
(R58, R112). -/
theorem swlBytes_eq (big : Bool) (va v : Word) :
    swlBytes big va v =
      if big then (alignedWord va + BitVec.ofNat 32 (va.toNat % 4), byteRun true v 0 (4 - va.toNat % 4))
      else (alignedWord va + BitVec.ofNat 32 0, byteRun false v (3 - va.toNat % 4) (va.toNat % 4 + 1)) := by
  rw [alignedWord_add_lane, BitVec.add_zero, byteRun_last (n := va.toNat % 4 + 1) _ v (by omega), swlBytes, laneOf_toNat]
  cases big <;> rfl

/-- SWR stores the least significant bytes (R58, R113). -/
theorem swrBytes_eq (big : Bool) (va v : Word) :
    swrBytes big va v =
      if big then (alignedWord va + BitVec.ofNat 32 0, byteRun true v (3 - va.toNat % 4) (va.toNat % 4 + 1))
      else (alignedWord va + BitVec.ofNat 32 (va.toNat % 4), byteRun false v 0 (4 - va.toNat % 4)) := by
  rw [alignedWord_add_lane, BitVec.add_zero, byteRun_last (n := va.toNat % 4 + 1) _ v (by omega), swrBytes, laneOf_toNat]
  cases big <;> rfl

theorem swlBytes_span (big : Bool) (va v : Word) :
    (swlBytes big va v).1 = (leftSpan big va).1 ∧ (swlBytes big va v).2.length = (leftSpan big va).2 := by
  rw [swlBytes_eq, leftSpan_eq]
  cases big with
  | true => exact ⟨alignedWord_add_lane va, length_byteRun true v (by omega)⟩
  | false => exact ⟨BitVec.add_zero _, length_byteRun false v (by omega)⟩

theorem swrBytes_span (big : Bool) (va v : Word) :
    (swrBytes big va v).1 = (rightSpan big va).1 ∧ (swrBytes big va v).2.length = (rightSpan big va).2 := by
  rw [swrBytes_eq, rightSpan_eq]
  cases big with
  | true => exact ⟨BitVec.add_zero _, length_byteRun true v (by omega)⟩
  | false => exact ⟨alignedWord_add_lane va, length_byteRun false v (by omega)⟩

section Lanes

variable {s : State} {va : Word}

/-- The first bytes of the register, to `va` and up to the end of its word. -/
theorem storesRun_fromLane (hb : ¬s.BusError true va (4 - va.toNat % 4)) (hr : s.inRam (alignedWord va) 4)
    (hs : s.separateBytes (alignedWord va)) :
    StoresRun s (alignedWord va) (va.toNat % 4) 0 (4 - va.toNat % 4) :=
  ⟨by omega, by omega, hr, hs, (alignedWord_add_lane va).symm ▸ hb⟩

/-- The last bytes of the register, to the beginning of the word and up to `va`. -/
theorem storesRun_toLane (hb : ¬s.BusError true (alignedWord va) (va.toNat % 4 + 1)) (hr : s.inRam (alignedWord va) 4)
    (hs : s.separateBytes (alignedWord va)) :
    StoresRun s (alignedWord va) 0 (3 - va.toNat % 4) (va.toNat % 4 + 1) :=
  ⟨by omega, by omega, hr, hs, (BitVec.add_zero (alignedWord va)).symm ▸ hb⟩

end Lanes

/-- The word behind SWL (R112). -/
theorem wordAt_afterStore_swl {s : State} {va : Word} (v : Word)
    (hb : ¬s.BusError true (leftSpan s.params.bigEndian va).1 (leftSpan s.params.bigEndian va).2)
    (hr : s.inRam (alignedWord va) 4) (hs : s.separateBytes (alignedWord va)) :
    (s.afterStore va (swlBytes s.params.bigEndian va v).1 (swlBytes s.params.bigEndian va v).2).wordAt (alignedWord va) =
      (v >>> (if s.params.bigEndian then 8 * (va.toNat % 4) else 8 * (3 - va.toNat % 4))) |||
        (s.wordAt (alignedWord va) &&&
          ~~~((0xFFFFFFFF : Word) >>>
            (if s.params.bigEndian then 8 * (va.toNat % 4) else 8 * (3 - va.toNat % 4)))) := by
  rw [leftSpan_eq] at hb
  rw [swlBytes_eq]
  cases hbig : s.params.bigEndian with
  | true =>
    simp only [hbig, if_true] at hb ⊢
    have hw := (storesRun_fromLane hb hr hs).wordAt_shiftRight va v (sh := 8 * (va.toNat % 4)) (by omega)
    simp only [hbig, byteOfBit_true] at hw
    exact hw (fun i hi h => ⟨3 - i / 8 - va.toNat % 4, by omega⟩) (fun i hi h q hq => by omega)
  | false =>
    simp only [hbig, Bool.false_eq_true, if_false] at hb ⊢
    have hw := (storesRun_toLane hb hr hs).wordAt_shiftRight va v (sh := 8 * (3 - va.toNat % 4)) (by omega)
    simp only [hbig, byteOfBit_false] at hw
    exact hw (fun i hi h => ⟨i / 8, by omega⟩) (fun i hi h q hq => by omega)

/-- The word behind SWR (R113). -/
theorem wordAt_afterStore_swr {s : State} {va : Word} (v : Word)
    (hb : ¬s.BusError true (rightSpan s.params.bigEndian va).1 (rightSpan s.params.bigEndian va).2)
    (hr : s.inRam (alignedWord va) 4) (hs : s.separateBytes (alignedWord va)) :
    (s.afterStore va (swrBytes s.params.bigEndian va v).1 (swrBytes s.params.bigEndian va v).2).wordAt (alignedWord va) =
      (v <<< (if s.params.bigEndian then 8 * (3 - va.toNat % 4) else 8 * (va.toNat % 4))) |||
        (s.wordAt (alignedWord va) &&&
          (((1 : Word) <<< (if s.params.bigEndian then 8 * (3 - va.toNat % 4) else 8 * (va.toNat % 4))) - 1)) := by
  rw [rightSpan_eq] at hb
  rw [swrBytes_eq]
  cases hbig : s.params.bigEndian with
  | true =>
    simp only [hbig, if_true] at hb ⊢
    have hw := (storesRun_toLane hb hr hs).wordAt_shiftLeft va v (sh := 8 * (3 - va.toNat % 4)) (by omega) (by omega)
    simp only [hbig, byteOfBit_true] at hw
    exact hw (fun i hi h => ⟨3 - i / 8, by omega⟩) (fun i hi h q hq => by omega)
  | false =>
    simp only [hbig, Bool.false_eq_true, if_false] at hb ⊢
    have hw := (storesRun_fromLane hb hr hs).wordAt_shiftLeft va v (sh := 8 * (va.toNat % 4)) (by omega) (by omega)
    simp only [hbig, byteOfBit_false] at hw
    exact hw (fun i hi h => ⟨i / 8 - va.toNat % 4, by omega⟩) (fun i hi h q hq => by omega)

/-- Settles O58: the bytes of SWL and SWR are those of R58, and the word behind them. -/
theorem unalignedStores : Obligations.UnalignedStores := by
  intro s rt base offset va wa W R k hva hwa hW hR hk ha
  subst hva hwa hW hR hk
  obtain ⟨hleft, hleftLength⟩ := swlBytes_span s.params.bigEndian (s.address base offset) (s.rt rt)
  obtain ⟨hright, hrightLength⟩ := swrBytes_span s.params.bigEndian (s.address base offset) (s.rt rt)
  refine ⟨⟨_, storeAccess_next (s.swlStore rt offset base) ha, (leftSpan_iff (Stored s _ _) _ _).mpr ?_, fun hb =>
      wordAt_afterStore_swl (s.rt rt) ((leftSpan_iff (¬s.BusError true · ·) _ _).mp hb)⟩,
    ⟨_, storeAccess_next (s.swrStore rt offset base) ha, (rightSpan_iff (Stored s _ _) _ _).mpr ?_, fun hb =>
      wordAt_afterStore_swr (s.rt rt) ((rightSpan_iff (¬s.BusError true · ·) _ _).mp hb)⟩⟩
  · rw [← hleft, ← hleftLength]
    exact store_spec s _ _ _
  · rw [← hright, ← hrightLength]
    exact store_spec s _ _ _

end Sys2Proof.Machine
end

section
/-! SUPPORT. Proofs of the statements about ADD, ADDI and SUB, the other arithmetic instructions, the comparisons, the bitwise
instructions and LUI: the value that each writes, in terms of integers or of bits. -/

namespace Sys2Proof.Machine

/-! ### Immediates -/

theorem toInt_signImm (imm : BitVec 16) : (signImm imm).toInt = imm.toInt := BitVec.toInt_signExtend_of_le (by decide)

theorem toNat_signImm (imm : BitVec 16) : ((signImm imm).toNat : Int) = imm.toInt % 2 ^ 32 := by
  have hnat : (signImm imm).toNat = (imm.toInt % 2 ^ 32).toNat := BitVec.toNat_ofInt imm.toInt
  rw [hnat, Int.toNat_of_nonneg (Int.emod_nonneg _ (by decide))]

theorem getLsbD_zeroImm (imm : BitVec 16) {k : Nat} (hk : k < 32) :
    (zeroImm imm).getLsbD k = (decide (k < 16) && imm.getLsbD k) := by
  have hlow : (zeroImm imm).getLsbD k = imm.getLsbD k := (BitVec.getLsbD_setWidth ..).trans (by simp [hk])
  by_cases h : k < 16
  · simp [hlow, h]
  · simp [hlow, h, BitVec.getLsbD_of_ge imm k (by omega)]

theorem toNat_upperImm (imm : BitVec 16) : (upperImm imm).toNat = imm.toNat * 2 ^ 16 := by
  rw [upperImm, toNat_append_eq_add, BitVec.toNat_ofNat, Nat.zero_mod, Nat.add_zero]

/-! ### Signed results and overflow -/

theorem overflows_iff (n : Int) : overflows n = true ↔ n < -2 ^ 31 ∨ n > 2 ^ 31 - 1 := by
  rw [overflows, Bool.or_eq_true, decide_eq_true_iff, decide_eq_true_iff]

theorem overflows_eq_false {n : Int} (hlo : -2 ^ 31 ≤ n) (hhi : n ≤ 2 ^ 31 - 1) : overflows n = false := by
  rw [← Bool.not_eq_true, overflows_iff]
  omega

/-- A signed 32-bit value is its own balanced remainder modulo 2^32, which is what addition and subtraction of words leave. -/
theorem bmod_of_representable {n : Int} (hlo : -2 ^ 31 ≤ n) (hhi : n ≤ 2 ^ 31 - 1) : n.bmod (2 ^ 32) = n :=
  Int.bmod_eq_of_le (by omega) (by omega)

theorem toInt_add_of_representable {a b : Word} (hlo : -2 ^ 31 ≤ a.toInt + b.toInt) (hhi : a.toInt + b.toInt ≤ 2 ^ 31 - 1) :
    (a + b).toInt = a.toInt + b.toInt :=
  (BitVec.toInt_add a b).trans (bmod_of_representable hlo hhi)

theorem toInt_sub_of_representable {a b : Word} (hlo : -2 ^ 31 ≤ a.toInt - b.toInt) (hhi : a.toInt - b.toInt ≤ 2 ^ 31 - 1) :
    (a - b).toInt = a.toInt - b.toInt :=
  BitVec.toInt_sub.trans (bmod_of_representable hlo hhi)

/-- What ADD, ADDI and SUB have in common: `rd` becomes `v`, unless the exact result `n` is no signed 32-bit value. -/
def trapOrWrite (s : State) (rd : RegIdx) (n : Int) (v : Word) : Result :=
  if overflows n then raise .ovf s else .next (s.writeBack rd v)

theorem trapOrWrite_next (s : State) (rd : RegIdx) {n : Int} (v : Word) (hlo : -2 ^ 31 ≤ n) (hhi : n ≤ 2 ^ 31 - 1) :
    trapOrWrite s rd n v = .next (s.writeBack rd v) := by
  rw [trapOrWrite, overflows_eq_false hlo hhi]
  rfl

theorem trapOrWrite_ovf (s : State) (rd : RegIdx) {n : Int} (v : Word) (h : n < -2 ^ 31 ∨ n > 2 ^ 31 - 1) :
    trapOrWrite s rd n v = raise .ovf s := if_pos ((overflows_iff n).mpr h)

theorem exec_add (s : State) (rd rs rt : RegIdx) :
    exec (.add rd rs rt) s = trapOrWrite s rd ((s.rs rs).toInt + (s.rt rt).toInt) (s.rs rs + s.rt rt) := rfl

theorem exec_addi (s : State) (rt rs : RegIdx) (imm : BitVec 16) :
    exec (.addi rt rs imm) s = trapOrWrite s rt ((s.rs rs).toInt + imm.toInt) (s.rs rs + signImm imm) := by
  rw [← toInt_signImm]
  rfl

theorem exec_sub (s : State) (rd rs rt : RegIdx) :
    exec (.sub rd rs rt) s = trapOrWrite s rd ((s.rs rs).toInt - (s.rt rt).toInt) (s.rs rs - s.rt rt) := rfl

/-- An instruction that ends with the write of a register. -/
theorem writes_register {s : State} {r : Result} {P : Word → Prop} (rd : RegIdx) (v : Word)
    (hr : r = .next (s.writeBack rd v)) (hv : P v) : ∃ t v, r = .next t ∧ WroteRegister s t rd v ∧ P v :=
  ⟨_, v, hr, writeBack_spec s rd v, hv⟩

/-- Settles O22: within the bounds the test of overflow fails, and the sum or difference modulo 2^32 is the exact one. -/
theorem signedArithmetic : Obligations.SignedArithmetic := by
  intro s rd rs rt imm
  refine ⟨fun hlo hhi => ?_, fun hlo hhi => ?_, fun hlo hhi => ?_⟩
  · rw [exec_add, trapOrWrite_next _ _ _ hlo hhi]
    exact writes_register rd _ rfl (toInt_add_of_representable hlo hhi)
  · rw [exec_addi, trapOrWrite_next _ _ _ hlo hhi]
    rw [← toInt_signImm] at hlo hhi ⊢
    exact writes_register rt _ rfl (toInt_add_of_representable hlo hhi)
  · rw [exec_sub, trapOrWrite_next _ _ _ hlo hhi]
    exact writes_register rd _ rfl (toInt_sub_of_representable hlo hhi)

/-- Settles O23: outside the bounds the three raise Ovf before they look at the destination. -/
theorem overflowTraps : Obligations.OverflowTraps := by
  intro s rd rs rt imm
  refine ⟨fun h => ?_, fun h => ?_, fun h => ?_⟩
  · rw [exec_add, trapOrWrite_ovf _ _ _ h]
    exact raise_spec s .ovf
  · rw [exec_addi, trapOrWrite_ovf _ _ _ h]
    exact raise_spec s .ovf
  · rw [exec_sub, trapOrWrite_ovf _ _ _ h]
    exact raise_spec s .ovf

/-! ### Results modulo 2^32 -/

theorem toNat_add_signImm (a : Word) (imm : BitVec 16) :
    ((a + signImm imm).toNat : Int) = (a.toNat + imm.toInt) % 2 ^ 32 := by
  calc ((a + signImm imm).toNat : Int)
      = (a.toNat + (signImm imm).toNat) % 2 ^ 32 := by rw [BitVec.toNat_add]; rfl
    _ = (a.toNat + imm.toInt) % 2 ^ 32 := by rw [toNat_signImm, Int.add_emod_emod]

theorem toNat_sub_word (a b : Word) : (a - b).toNat = (a.toNat + (2 ^ 32 - b.toNat)) % 2 ^ 32 := by
  rw [BitVec.toNat_sub, Nat.add_comm]

/-- Settles O24: none of the three tests for overflow, so each is its word's value modulo 2^32. -/
theorem unsignedArithmetic : Obligations.UnsignedArithmetic := by
  intro s rd rs rt imm
  refine ⟨?_, ?_, ?_⟩
  · exact writes_register rd (s.rs rs + s.rt rt) rfl (BitVec.toNat_add ..)
  · exact writes_register rd (s.rs rs - s.rt rt) rfl (toNat_sub_word ..)
  · exact writes_register rt (s.rs rs + signImm imm) rfl (toNat_add_signImm ..)

/-! ### Comparisons -/

theorem truth_decide (p : Prop) [Decidable p] : truth (decide p) = if p then 1 else 0 := by
  by_cases h : p <;> simp [truth, h]

/-- An instruction that writes whether a condition holds. -/
theorem writes_truth {s : State} {r : Result} (rd : RegIdx) {b : Bool} (p : Prop) [Decidable p]
    (hr : r = .next (s.writeBack rd (truth b))) (hb : b = decide p) :
    ∃ t, r = .next t ∧ WroteRegister s t rd (if p then 1 else 0) := by
  rw [hb, truth_decide] at hr
  exact ⟨_, hr, writeBack_spec s rd _⟩

theorem lessSigned_signImm (a : Word) (imm : BitVec 16) : lessSigned a (signImm imm) = decide (a.toInt < imm.toInt) := by
  rw [lessSigned, toInt_signImm]

theorem lessUnsigned_signImm (a : Word) (imm : BitVec 16) :
    lessUnsigned a (signImm imm) = decide ((a.toNat : Int) < imm.toInt % 2 ^ 32) := by
  rw [lessUnsigned, ← toNat_signImm]
  exact decide_eq_decide.mpr Int.ofNat_lt.symm

/-- Settles O25: the immediate is sign-extended first, for the unsigned comparison too. -/
theorem comparisons : Obligations.Comparisons := by
  intro s rd rs rt imm
  exact ⟨writes_truth rd _ rfl rfl, writes_truth rd _ rfl rfl, writes_truth rt _ rfl (lessSigned_signImm ..),
    writes_truth rt _ rfl (lessUnsigned_signImm ..)⟩

/-! ### Bits -/

theorem getLsbD_nor (a b : Word) {k : Nat} (hk : k < 32) :
    (~~~(a ||| b)).getLsbD k = !(a.getLsbD k || b.getLsbD k) := by
  rw [BitVec.getLsbD_not, BitVec.getLsbD_or, decide_eq_true hk, Bool.true_and]

theorem getLsbD_and_zeroImm (a : Word) (imm : BitVec 16) {k : Nat} (hk : k < 32) :
    (a &&& zeroImm imm).getLsbD k = (decide (k < 16) && a.getLsbD k && imm.getLsbD k) := by
  rw [BitVec.getLsbD_and, getLsbD_zeroImm imm hk, Bool.and_left_comm, Bool.and_assoc]

theorem getLsbD_or_zeroImm (a : Word) (imm : BitVec 16) {k : Nat} (hk : k < 32) :
    (a ||| zeroImm imm).getLsbD k = (a.getLsbD k || (decide (k < 16) && imm.getLsbD k)) := by
  rw [BitVec.getLsbD_or, getLsbD_zeroImm imm hk]

theorem getLsbD_xor_zeroImm (a : Word) (imm : BitVec 16) {k : Nat} (hk : k < 32) :
    (a ^^^ zeroImm imm).getLsbD k = (a.getLsbD k ^^ (decide (k < 16) && imm.getLsbD k)) := by
  rw [BitVec.getLsbD_xor, getLsbD_zeroImm imm hk]

/-- Settles O26, instruction by instruction. -/
theorem bitwiseLogic : Obligations.BitwiseLogic := by
  intro s rd rs rt imm
  refine ⟨?_, ?_, ?_, ?_, ?_, ?_, ?_⟩
  · exact writes_register rd (s.rs rs &&& s.rt rt) rfl fun _ _ => BitVec.getLsbD_and
  · exact writes_register rd (s.rs rs ||| s.rt rt) rfl fun _ _ => BitVec.getLsbD_or
  · exact writes_register rd (s.rs rs ^^^ s.rt rt) rfl fun _ _ => BitVec.getLsbD_xor
  · exact writes_register rd (~~~(s.rs rs ||| s.rt rt)) rfl fun _ => getLsbD_nor _ _
  · exact writes_register rt (s.rs rs &&& zeroImm imm) rfl fun _ => getLsbD_and_zeroImm _ imm
  · exact writes_register rt (s.rs rs ||| zeroImm imm) rfl fun _ => getLsbD_or_zeroImm _ imm
  · exact writes_register rt (s.rs rs ^^^ zeroImm imm) rfl fun _ => getLsbD_xor_zeroImm _ imm

/-- Settles O27: LUI ends with the write of its register, as the bitwise instructions do, and leaves no pending load. -/
theorem loadUpperImmediate : Obligations.LoadUpperImmediate :=
  fun _ rt imm => writes_register rt (upperImm imm) rfl (toNat_upperImm imm)

end Sys2Proof.Machine
end

section
/-! SUPPORT. Proof of the statement about the shifts (43_shift.md). -/

namespace Sys2Proof.Machine

/-! ### What a shift does to the value of a word -/

/-- The bits shifted out on the left are those above `2 ^ 32`. -/
theorem toNat_shiftLeft_word (a : Word) (n : Nat) : (a <<< n).toNat = a.toNat * 2 ^ n % 2 ^ 32 := by
  rw [BitVec.toNat_shiftLeft, Nat.shiftLeft_eq]

/-- The bits shifted out on the right are the remainder of the division. -/
theorem toNat_ushiftRight_word (a : Word) (n : Nat) : (a >>> n).toNat = a.toNat / 2 ^ n := by
  rw [BitVec.toNat_ushiftRight, Nat.shiftRight_eq_div_pow]

/-- The copies of the sign shifted in make the division the one that rounds down, `/` on `Int` by a positive divisor. -/
theorem toInt_sshiftRight_word (a : Word) (n : Nat) : (a.sshiftRight n).toInt = a.toInt / 2 ^ n := by
  rw [BitVec.toInt_sshiftRight, Int.shiftRight_eq_div_pow]
  norm_cast

/-- The low five bits of a register are its value modulo 32 (R149). -/
theorem shiftCount_eq (v : Word) : shiftCount v = v.toNat % 32 := by
  rw [shiftCount, BitVec.extractLsb'_toNat, Nat.shiftRight_zero]

/-- Settles O28: each shift ends with the write of its register; the three by a register take the count modulo 32. -/
theorem shifts : Obligations.Shifts := by
  intro s rd rs rt shamt
  rw [← shiftCount_eq]
  refine ⟨?_, ?_, ?_, ?_, ?_, ?_⟩
  · exact writes_register rd (s.rt rt <<< shamt.toNat) rfl (toNat_shiftLeft_word ..)
  · exact writes_register rd (s.rt rt >>> shamt.toNat) rfl (toNat_ushiftRight_word ..)
  · exact writes_register rd ((s.rt rt).sshiftRight shamt.toNat) rfl (toInt_sshiftRight_word ..)
  · exact writes_register rd (s.rt rt <<< shiftCount (s.rs rs)) rfl (toNat_shiftLeft_word ..)
  · exact writes_register rd (s.rt rt >>> shiftCount (s.rs rs)) rfl (toNat_ushiftRight_word ..)
  · exact writes_register rd ((s.rt rt).sshiftRight (shiftCount (s.rs rs))) rfl (toInt_sshiftRight_word ..)

end Sys2Proof.Machine
end

section
/-! SUPPORT. Proofs of the statements about multiply and divide (44_multiply_divide.md): the product is the two halves joined, a
division is the signed or unsigned one on words, and each of the eight instructions ends with one write. -/

namespace Sys2Proof.Machine

/-! ### The product and its halves -/

/-- The upper and the lower word joined are the 64-bit value they were taken from. -/
theorem highWord_append_lowWord (p : BitVec 64) : highWord p ++ lowWord p = p := by
  have joined : highWord p ++ lowWord p = p.extractLsb' 0 64 := BitVec.extractLsb'_append_extractLsb'_eq_extractLsb' rfl
  rw [joined, BitVec.extractLsb'_eq_self]

theorem toInt_eq_highWord_lowWord (p : BitVec 64) : (highWord p).toInt * 2 ^ 32 + (lowWord p).toNat = p.toInt := by
  have h := BitVec.toInt_append (x := highWord p) (y := lowWord p)
  rw [highWord_append_lowWord, if_neg (by decide)] at h
  rw [h, Int.mul_comm]

theorem toNat_eq_highWord_lowWord (p : BitVec 64) : (highWord p).toNat * 2 ^ 32 + (lowWord p).toNat = p.toNat := by
  rw [← toNat_append_eq_add, highWord_append_lowWord]

/-- A product of two signed words is at most `2 ^ 62` in magnitude, so 64 bits hold it. -/
theorem toInt_mulSigned (a b : Word) : (mulSigned a b).toInt = a.toInt * b.toInt := by
  have hlo : -2 ^ 62 ≤ a.toInt * b.toInt := BitVec.le_toInt_mul_toInt
  have hhi : a.toInt * b.toInt ≤ 2 ^ 62 := BitVec.toInt_mul_toInt_le
  exact BitVec.toInt_ofInt_eq_self (by decide) (by omega) (by omega)

/-- A product of two unsigned words is below `2 ^ 64`. -/
theorem toNat_mulUnsigned (a b : Word) : (mulUnsigned a b).toNat = a.toNat * b.toNat := by
  rw [mulUnsigned, BitVec.toNat_ofNat, Nat.mod_eq_of_lt BitVec.toNat_mul_toNat_lt]

/-! ### Quotient and remainder -/

/-- The operands for which R158 gives no result: divisor zero, or `-2 ^ 31` by `-1`. -/
theorem divSigned_special {n d : Word} (h : d.toInt = 0 ∨ (n.toInt = -2 ^ 31 ∧ d.toInt = -1)) :
    divSigned n d = Config.divSpecial true n d := if_pos h

theorem divUnsigned_special {n d : Word} (h : d.toNat = 0) : divUnsigned n d = Config.divSpecial false n d := if_pos h

/-- But for the overflow pair, the quotient rounded toward zero is a signed 32-bit value. -/
theorem toInt_ofInt_tdiv {n d : Word} (h : ¬(n.toInt = -2 ^ 31 ∧ d.toInt = -1)) :
    (BitVec.ofInt 32 (n.toInt.tdiv d.toInt)).toInt = n.toInt.tdiv d.toInt := by
  have noOverflow : n ≠ BitVec.intMin 32 ∨ d ≠ -1#32 := by
    by_contra hc
    push Not at hc
    obtain ⟨rfl, rfl⟩ := hc
    exact h ⟨by decide, by decide⟩
  rw [← BitVec.toInt_sdiv_of_ne_or_ne n d noOverflow, BitVec.ofInt_toInt]

theorem toInt_ofInt_tmod (n d : Word) : (BitVec.ofInt 32 (n.toInt.tmod d.toInt)).toInt = n.toInt.tmod d.toInt := by
  rw [← BitVec.toInt_srem, BitVec.ofInt_toInt]

/-- DIV on the other operands, as signed values: `Int.tdiv` rounds toward zero, `Int.tmod` has the sign of the dividend. -/
theorem toInt_divSigned {n d : Word} (hd : d.toInt ≠ 0) (h : ¬(n.toInt = -2 ^ 31 ∧ d.toInt = -1)) :
    (divSigned n d).1.toInt = n.toInt.tdiv d.toInt ∧ (divSigned n d).2.toInt = n.toInt.tmod d.toInt := by
  rw [divSigned, if_neg (not_or.mpr ⟨hd, h⟩)]
  exact ⟨toInt_ofInt_tdiv h, toInt_ofInt_tmod n d⟩

theorem divUnsigned_eq {n d : Word} (hd : d.toNat ≠ 0) : divUnsigned n d = (n / d, n % d) := by
  rw [divUnsigned, if_neg hd, ← BitVec.toNat_udiv, ← BitVec.toNat_umod, BitVec.ofNat_toNat, BitVec.ofNat_toNat,
    BitVec.setWidth_eq, BitVec.setWidth_eq]

theorem natAbs_tmod_lt (n : Int) {d : Int} (hd : d ≠ 0) : (n.tmod d).natAbs < d.natAbs := by
  rw [Int.natAbs_tmod]
  exact Nat.mod_lt _ (Int.natAbs_pos.mpr hd)

theorem tmod_nonpos {n : Int} (d : Int) (hn : n ≤ 0) : n.tmod d ≤ 0 := by
  have h : 0 ≤ (-n).tmod d := Int.tmod_nonneg d (by omega)
  rw [Int.neg_tmod] at h
  omega

/-! ### The instructions -/

theorem exec_mult (s : State) (rs rt : RegIdx) :
    exec (.mult rs rt) s =
      .next (s.setHiLo (highWord (mulSigned (s.rs rs) (s.rt rt))) (lowWord (mulSigned (s.rs rs) (s.rt rt)))).finish := rfl

theorem exec_multu (s : State) (rs rt : RegIdx) :
    exec (.multu rs rt) s =
      .next (s.setHiLo (highWord (mulUnsigned (s.rs rs) (s.rt rt))) (lowWord (mulUnsigned (s.rs rs) (s.rt rt)))).finish := rfl

theorem exec_div (s : State) (rs rt : RegIdx) :
    exec (.div rs rt) s =
      .next (s.setHiLo (divSigned (s.rs rs) (s.rt rt)).2 (divSigned (s.rs rs) (s.rt rt)).1).finish := rfl

theorem exec_divu (s : State) (rs rt : RegIdx) :
    exec (.divu rs rt) s =
      .next (s.setHiLo (divUnsigned (s.rs rs) (s.rt rt)).2 (divUnsigned (s.rs rs) (s.rt rt)).1).finish := rfl

/-- An instruction that ends with the write of HI and LO. -/
theorem writes_hiLo {s : State} {r : Result} {hi lo : Word} (hr : r = .next (s.setHiLo hi lo).finish) :
    ∃ t, r = .next t ∧ WroteHiLo s t hi lo := ⟨_, hr, setHiLo_spec s hi lo⟩

/-- The same, where a statement says of the two words only what `P` says. -/
theorem writes_hiLo_with {s : State} {r : Result} {hi lo : Word} {P : Word → Word → Prop}
    (hr : r = .next (s.setHiLo hi lo).finish) (hp : P hi lo) : ∃ t hi lo, r = .next t ∧ WroteHiLo s t hi lo ∧ P hi lo :=
  ⟨_, hi, lo, hr, setHiLo_spec s hi lo, hp⟩

/-- Settles O29: the two halves are joined to the 64-bit product, which is exact. -/
theorem multiply : Obligations.Multiply := by
  intro s rs rt
  constructor
  · exact writes_hiLo_with (exec_mult s rs rt) ((toInt_eq_highWord_lowWord _).trans (toInt_mulSigned ..))
  · exact writes_hiLo_with (exec_multu s rs rt) ((toNat_eq_highWord_lowWord _).trans (toNat_mulUnsigned ..))

/-- Settles O30: DIV is `Int.tdiv` and `Int.tmod` on the signed values, DIVU the division of the words. -/
theorem divide : Obligations.Divide := by
  intro s rs rt
  refine ⟨fun hd h => ?_, fun hd => ?_⟩
  · obtain ⟨hq, hr⟩ := toInt_divSigned hd h
    refine writes_hiLo_with (exec_div s rs rt) ?_
    rw [hq, hr]
    exact ⟨(Int.tdiv_mul_add_tmod ..).symm, natAbs_tmod_lt _ hd, Int.tmod_nonneg _, tmod_nonpos _⟩
  · refine writes_hiLo_with (exec_divu s rs rt) ?_
    rw [divUnsigned_eq hd]
    exact ⟨(Nat.div_add_mod' ..).symm, Nat.mod_lt _ (Nat.pos_of_ne_zero hd)⟩

/-- Settles O31: on these operands the pair written is the one of `divSpecial`. -/
theorem divideSpecial : Obligations.DivideSpecial := by
  intro s rs rt
  refine ⟨fun h => ?_, fun h => ?_⟩
  · rw [← divSigned_special h]
    exact writes_hiLo (exec_div s rs rt)
  · rw [← divUnsigned_special h]
    exact writes_hiLo (exec_divu s rs rt)

/-- Settles O32: the moves from the pair end with the write of a register, those to it with the write of the pair. -/
theorem hiLoMoves : Obligations.HiLoMoves := by
  intro s rd rs
  refine ⟨?_, ?_, ?_, ?_⟩
  · exact ⟨_, rfl, writeBack_spec s rd s.hi⟩
  · exact ⟨_, rfl, writeBack_spec s rd s.lo⟩
  · exact writes_hiLo rfl
  · exact writes_hiLo rfl

end Sys2Proof.Machine
end

section
/-! SUPPORT. Proofs of the statements about the jumps and branches (45_jump_branch.md): where each goes, as an integer, and what
it does in a branch delay slot. -/

namespace Sys2Proof.Machine

/-! ### Targets -/

/-- The jump target: the 256-Mbyte region of the delay slot, and in it the word that the 26 bits name (R172). -/
theorem toNat_jumpTarget (s : State) (target : BitVec 26) :
    (s.jumpTarget target).toNat = (s.pc + 4).toNat / 2 ^ 28 * 2 ^ 28 + target.toNat * 4 := by
  have hregion : ((s.pc + 4).extractLsb' 28 4).toNat = (s.pc + 4).toNat / 2 ^ 28 := by
    rw [BitVec.extractLsb'_toNat, Nat.shiftRight_eq_div_pow]
    have := (s.pc + 4).isLt
    omega
  rw [State.jumpTarget, toNat_append_eq_add, toNat_append_eq_add, hregion, BitVec.toNat_ofNat]
  omega

/-- The two zero bits behind an offset multiply its signed value by four. -/
theorem toInt_append_zeros (offset : BitVec 16) : (offset ++ 0#2 : BitVec (16 + 2)).toInt = 4 * offset.toInt := by
  have happend : (offset ++ 0#2 : BitVec (16 + 2)).toNat = offset.toNat * 4 := toNat_append_eq_add offset 0#2
  rw [BitVec.toInt_eq_toNat_cond, BitVec.toInt_eq_toNat_cond, happend]
  omega

/-- The branch target (R176). -/
theorem toNat_branchTarget (s : State) (offset : BitVec 16) :
    ((s.branchTarget offset).toNat : Int) = (s.pc.toNat + 4 + 4 * offset.toInt) % 2 ^ 32 := by
  have hoffset : (((offset ++ 0#2 : BitVec (16 + 2)).signExtend 32).toNat : Int) = 4 * offset.toInt % 2 ^ 32 := by
    rw [← toInt_append_zeros, BitVec.signExtend, BitVec.toNat_ofInt, Int.toNat_of_nonneg (Int.emod_nonneg _ (by decide))]
    rfl
  rw [State.branchTarget, BitVec.toNat_add, BitVec.toNat_add]
  push_cast
  rw [hoffset]
  omega

/-! ### The sign test -/

theorem getLsbD_31_eq_negative (v : Word) : v.getLsbD 31 = decide (v.toInt < 0) := by
  rw [← BitVec.msb_eq_toInt, BitVec.msb_eq_getLsbD_last]

theorem not_getLsbD_31_eq_nonnegative (v : Word) : (!v.getLsbD 31) = decide (0 ≤ v.toInt) := by
  rw [getLsbD_31_eq_negative, ← decide_not, decide_eq_decide, Int.not_lt]

/-! ### Outside a delay slot -/

/-- An instruction that ends as a jump or branch without link, by the condition that the spec gives. -/
theorem branches {s : State} {r : Result} {taken taken' : Bool} {target : Word} (h : s.ds = none)
    (hr : r = jumpOrBranch s taken target) (ht : taken = taken') : ∃ t, r = .next t ∧ Branched s t taken' target := by
  rw [hr, ← ht]
  exact jumpOrBranch_next taken target h

/-- The same with link. -/
theorem links {s : State} {r : Result} {rd : RegIdx} {taken taken' : Bool} {target : Word} (h : s.ds = none)
    (hr : r = jumpOrBranchLink s rd taken target) (ht : taken = taken') :
    ∃ t, r = .next t ∧ Linked s t rd taken' target := by
  rw [hr, ← ht]
  exact jumpOrBranchLink_next rd taken target h

/-- Settles O33: each ends in its transfer, and the two targets that are put together are `jumpTarget`. -/
theorem jumps : Obligations.Jumps := by
  intro s rs rd target h
  refine ⟨?_, ?_, branches h rfl rfl, links h rfl rfl⟩
  · exact (branches h rfl rfl).imp fun _ ⟨hnext, hbranched⟩ => ⟨_, hnext, hbranched, toNat_jumpTarget s target⟩
  · exact (links h rfl rfl).imp fun _ ⟨hnext, hlinked⟩ => ⟨_, hnext, hlinked, toNat_jumpTarget s target⟩

/-- Settles O34: the two share their target and compare the words. -/
theorem equalityBranches : Obligations.EqualityBranches := by
  intro s rs rt offset h
  refine ⟨s.branchTarget offset, toNat_branchTarget s offset, ?_, ?_⟩
  · exact branches h rfl (beq_eq_decide ..)
  · exact branches h rfl decide_not.symm

/-- Settles O35: BLEZ and BGTZ compare with zero, BLTZ and BGEZ look at bit 31. -/
theorem signBranches : Obligations.SignBranches := by
  intro s rs offset h
  refine ⟨s.branchTarget offset, toNat_branchTarget s offset, ?_, ?_, ?_, ?_⟩
  · exact branches h rfl rfl
  · exact branches h rfl rfl
  · exact branches h rfl (getLsbD_31_eq_negative _)
  · exact branches h rfl (not_getLsbD_31_eq_nonnegative _)

/-- Settles O36: the test is that of BLTZ and BGEZ on the register of the state before the link is written. -/
theorem linkBranches : Obligations.LinkBranches := by
  intro s rs offset h
  refine ⟨s.branchTarget offset, toNat_branchTarget s offset, ?_, ?_⟩
  · exact links h rfl (getLsbD_31_eq_negative _)
  · exact links h rfl (not_getLsbD_31_eq_nonnegative _)

/-! ### In a delay slot -/

theorem jumpOrBranch_inSlot {s : State} (taken : Bool) (target : Word) (hd : s.ds ≠ none) :
    jumpOrBranch s taken target = .fault .branchInDelaySlot := if_pos (Option.isSome_iff_ne_none.mpr hd)

theorem jumpOrBranchLink_inSlot {s : State} (rd : RegIdx) (taken : Bool) (target : Word) (hd : s.ds ≠ none) :
    jumpOrBranchLink s rd taken target = .fault .branchInDelaySlot := if_pos (Option.isSome_iff_ne_none.mpr hd)

/-- Settles O38: the twelve stop in the transfer with or without link, BCzT and BCzF in theirs behind the test of the unit. -/
theorem branchInDelaySlot : Obligations.BranchInDelaySlot := by
  intro s rs rt rd offset target z i hd
  have plain := fun taken target => jumpOrBranch_inSlot taken target hd
  have link := fun rd taken target => jumpOrBranchLink_inSlot rd taken target hd
  simp only [List.mem_cons, List.not_mem_nil, or_false, Prod.mk.injEq]
  refine ⟨fun hi => ?_, fun hi hu => ?_⟩
  · obtain rfl | rfl | rfl | rfl | rfl | rfl | rfl | rfl | rfl | rfl | rfl | rfl := hi
    exacts [plain _ _, link _ _ _, plain _ _, link _ _ _, plain _ _, plain _ _, plain _ _, plain _ _, plain _ _, plain _ _,
      link _ _ _, link _ _ _]
  · obtain ⟨rfl, rfl⟩ | ⟨rfl, rfl⟩ | ⟨rfl, rfl⟩ | ⟨rfl, rfl⟩ | ⟨rfl, rfl⟩ | ⟨rfl, rfl⟩ | ⟨rfl, rfl⟩ | ⟨rfl, rfl⟩ := hi <;>
      exact copBranch_inSlot _ _ hd hu

end Sys2Proof.Machine
end

section
/-! SUPPORT. Proof of the statement about SYSCALL and BREAK (46_special.md): neither looks at its code field or at the mode. -/

namespace Sys2Proof.Machine

theorem exec_syscall (s : State) (code : BitVec 20) : exec (.syscall code) s = raise .sys s := rfl

theorem exec_brk (s : State) (code : BitVec 20) : exec (.brk code) s = raise .bp s := rfl

/-- Settles O40: both raise their exception without a test, and `raise` always enters it. -/
theorem systemCallAndBreak : Obligations.SystemCallAndBreak := by
  intro s code
  rw [exec_syscall, exec_brk]
  exact ⟨raise_spec s .sys, raise_spec s .bp⟩

end Sys2Proof.Machine
end

section
/-! SUPPORT. Proofs of the statements about the coprocessor instructions (47_coprocessor.md): which of the shared operations each
form is, and what that operation does on a usable and on an unusable unit. -/

namespace Sys2Proof.Machine

/-! ### The forms and their meanings -/

/-- The forms of coprocessors 1 to 3 that are not implemented, with the number of their unit (R197 to R203). -/
def unimplementedForms (rt rd base : RegIdx) (offset : BitVec 16) (cofun : BitVec 25) : List (BitVec 2 × Instr) :=
  [(1, .mfc1 rt rd), (1, .cfc1 rt rd), (1, .mtc1 rt rd), (1, .ctc1 rt rd), (1, .cop1 cofun), (1, .lwc1 rt offset base),
   (1, .swc1 rt offset base),
   (2, .mfc2 rt rd), (2, .cfc2 rt rd), (2, .mtc2 rt rd), (2, .ctc2 rt rd), (2, .cop2 cofun), (2, .lwc2 rt offset base),
   (2, .swc2 rt offset base),
   (3, .mfc3 rt rd), (3, .cfc3 rt rd), (3, .mtc3 rt rd), (3, .ctc3 rt rd), (3, .cop3 cofun), (3, .lwc3 rt offset base),
   (3, .swc3 rt offset base)]

/-- BCzT and BCzF, with the number of their unit and the value of the condition line on which they branch (R204, R205). -/
def conditionForms (offset : BitVec 16) : List (BitVec 2 × Bool × Instr) :=
  [(0, true, .bc0t offset), (0, false, .bc0f offset), (1, true, .bc1t offset), (1, false, .bc1f offset),
   (2, true, .bc2t offset), (2, false, .bc2f offset), (3, true, .bc3t offset), (3, false, .bc3f offset)]

theorem exec_of_mem_unimplementedForms {rt rd base : RegIdx} {offset : BitVec 16} {cofun : BitVec 25} {z : BitVec 2}
    {i : Instr} (s : State) (hi : (z, i) ∈ unimplementedForms rt rd base offset cofun) :
    exec i s = unimplementedCop s z (s.sr.usable z) := by
  have hforms : ∀ f ∈ unimplementedForms rt rd base offset cofun,
      exec f.2 s = unimplementedCop s f.1 (s.sr.usable f.1) := by
    simp only [unimplementedForms, List.forall_mem_cons]
    exact ⟨rfl, rfl, rfl, rfl, rfl, rfl, rfl,
      rfl, rfl, rfl, rfl, rfl, rfl, rfl,
      rfl, rfl, rfl, rfl, rfl, rfl, rfl, List.forall_mem_nil _⟩
  exact hforms _ hi

/-- CFC0, CTC0 and COP0 have a test of their own: kernel mode may use unit 0 whatever Cu0 says (R196). -/
theorem exec_of_mem_cop0Forms {rt rd : RegIdx} {cofun : BitVec 25} {i : Instr} (s : State)
    (hi : i ∈ [Instr.cfc0 rt rd, .ctc0 rt rd, .cop0 cofun]) : exec i s = unimplementedCop s 0 s.cop0Usable := by
  simp only [List.mem_cons, List.not_mem_nil, or_false] at hi
  obtain rfl | rfl | rfl := hi
  · rfl
  · rfl
  · rfl

theorem exec_of_mem_conditionForms {offset : BitVec 16} {z : BitVec 2} {sense : Bool} {i : Instr} (s : State)
    (hi : (z, sense, i) ∈ conditionForms offset) : exec i s = copBranch s z sense offset := by
  have hforms : ∀ f ∈ conditionForms offset, exec f.2.2 s = copBranch s f.1 f.2.1 offset := by
    simp only [conditionForms, List.forall_mem_cons]
    exact ⟨rfl, rfl, rfl, rfl, rfl, rfl, rfl, rfl, List.forall_mem_nil _⟩
  exact hforms _ hi

/-- LWC0 and SWC0 look at no part of the state (R208). -/
theorem exec_of_mem_cop0Transfers {rt base : RegIdx} {offset : BitVec 16} {i : Instr} (s : State)
    (hi : i ∈ [Instr.lwc0 rt offset base, .swc0 rt offset base]) :
    exec i s = .refused .undefinedCoprocessor0Transfer := by
  simp only [List.mem_cons, List.not_mem_nil, or_false] at hi
  obtain rfl | rfl := hi
  · rfl
  · rfl

/-! ### The tests of the unit and of the condition line -/

/-- Unit 0 is usable for CFC0, CTC0 and COP0 in kernel mode or with Cu0 set (R196). -/
theorem cop0Usable_iff (s : State) : s.cop0Usable = true ↔ s.sr.kuc = false ∨ s.sr.cu.getLsbD 0 = true := by
  rw [State.cop0Usable, Bool.or_eq_true, Bool.not_eq_true']
  rfl

theorem cop0Usable_eq_false {s : State} (hmode : s.sr.kuc = true) (hcu : s.sr.cu.getLsbD 0 = false) :
    s.cop0Usable = false := by
  rw [← Bool.not_eq_true, cop0Usable_iff, hmode, hcu]
  decide

theorem copCondition_iff (s : State) (z : BitVec 2) (sense : Bool) :
    s.copCondition z sense = true ↔ s.now.cpc.getLsbD z.toNat = sense := beq_iff_eq

/-! ### Usable and unusable units -/

theorem unimplementedCop_usable {s : State} {z : BitVec 2} {usable : Bool} (hu : usable = true) :
    unimplementedCop s z usable = .refused (.unimplementedCoprocessor z) := if_pos hu

theorem unimplementedCop_unusable {s : State} {z : BitVec 2} {usable : Bool} (hu : usable = false) :
    ∃ t, unimplementedCop s z usable = .next t ∧ Raised s t (.cpU z) := by
  rw [unimplementedCop, hu]
  exact raise_spec s (.cpU z)

/-- Settles O37: on a usable unit BCzT and BCzF are the branch of `copBranch`, to the target that all branches share. -/
theorem coprocessorBranches : Obligations.CoprocessorBranches := by
  intro s offset z sense i h hi hu
  obtain ⟨t, hnext, hbranched⟩ := copBranch_next sense offset h hu
  rw [beq_eq_decide] at hbranched
  exact ⟨t, s.branchTarget offset, (exec_of_mem_conditionForms s hi).trans hnext, toNat_branchTarget s offset, hbranched⟩

/-- Settles O42: the unimplemented forms raise CpU by their own test of the unit, BCzT and BCzF by that of `copBranch`, which
comes before the delay slot's. -/
theorem coprocessorUnusable : Obligations.CoprocessorUnusable := by
  intro s rt rd base offset cofun z sense i
  refine ⟨fun hi hu => ?_, fun hi hmode hcu => ?_, fun hi hu => ?_⟩
  · rw [exec_of_mem_unimplementedForms s hi]
    exact unimplementedCop_unusable hu
  · rw [exec_of_mem_cop0Forms s hi]
    exact unimplementedCop_unusable (cop0Usable_eq_false hmode hcu)
  · obtain ⟨t, hnext, hentered⟩ := copBranch_unusable sense offset hu
    simp only [copCondition_iff] at hentered
    exact ⟨t, s.branchTarget offset, (exec_of_mem_conditionForms s hi).trans hnext, toNat_branchTarget s offset, hentered⟩

/-- Settles O43: where the test of the unit passes the unimplemented forms have no meaning, and LWC0 and SWC0 make no test. -/
theorem coprocessorStops : Obligations.CoprocessorStops := by
  intro s rt rd base offset cofun z i
  refine ⟨fun hi hu => ?_, fun hi hu => ?_, exec_of_mem_cop0Transfers s⟩
  · exact (exec_of_mem_unimplementedForms s hi).trans (unimplementedCop_usable hu)
  · exact (exec_of_mem_cop0Forms s hi).trans (unimplementedCop_usable ((cop0Usable_iff s).mpr hu))

end Sys2Proof.Machine
end

section
/-! SUPPORT. Proofs of the statements about MFC0, RFE, the register numbers that are not there and the TLB instructions
(48_cp0.md R210 to R217): the tests that come first, and what the two ways to complete leave. -/

namespace Sys2Proof.Machine

/-! ### RI: the privilege test, the registers and the instructions of the TLB -/

/-- In user mode with Cu0 clear MTC0, MFC0 and RFE are denied (R210). -/
theorem State.cp0Denied_eq_true {s : State} (hmode : s.sr.kuc = true) (hcu : s.sr.cu.getLsbD 0 = false) :
    s.cp0Denied = true := by
  have husable : s.sr.usable 0 = s.sr.cu.getLsbD 0 := rfl
  rw [State.cp0Denied, husable, hmode, hcu]
  rfl

/-- MFC0 and MTC0 raise RI where they are denied and, in every mode, for a register of the TLB (R210, R211). -/
theorem exec_cp0Move_denied {s : State} {rt rd : RegIdx} {i : Instr} (hi : i ∈ [Instr.mfc0 rt rd, .mtc0 rt rd])
    (h : (s.cp0Denied || tlbRegister rd) = true) : exec i s = raise .ri s := by
  simp only [List.mem_cons, List.not_mem_nil, or_false] at hi
  obtain rfl | rfl := hi
  · exact if_pos h
  · exact if_pos h

theorem exec_rfe_denied {s : State} (h : s.cp0Denied = true) : exec .rfe s = raise .ri s := if_pos h

/-- The four TLB instructions look at no part of the state (R216). -/
theorem exec_of_mem_tlbForms {i : Instr} (s : State) (hi : i ∈ [Instr.tlbr, .tlbwi, .tlbwr, .tlbp]) :
    exec i s = raise .ri s := by
  simp only [List.mem_cons, List.not_mem_nil, or_false] at hi
  obtain rfl | rfl | rfl | rfl := hi
  · rfl
  · rfl
  · rfl
  · rfl

/-- Settles O41: none of the four makes a test before it raises RI. -/
theorem tlbInstructions : Obligations.TlbInstructions := by
  intro s i hi
  rw [exec_of_mem_tlbForms s hi]
  exact raise_spec s .ri

/-- Settles O52: the privilege test comes first, whatever register is named. -/
theorem privilegedInstructions : Obligations.PrivilegedInstructions := by
  intro s rt rd i hmode hcu hi
  have hdenied : s.cp0Denied = true := State.cp0Denied_eq_true hmode hcu
  have hmove : ∀ j ∈ [Instr.mfc0 rt rd, .mtc0 rt rd], exec j s = raise .ri s := fun _ hj =>
    exec_cp0Move_denied hj (Bool.or_eq_true_iff.mpr (.inl hdenied))
  have hraise : exec i s = raise .ri s := by
    simp only [List.mem_cons, List.not_mem_nil, or_false] at hi
    obtain rfl | rfl | rfl := hi
    · exact hmove _ (by simp)
    · exact hmove _ (by simp)
    · exact exec_rfe_denied hdenied
  rw [hraise]
  exact raise_spec s .ri

/-! ### Registers by number -/

/-- The numbers of the eleven CP0 registers that exist (R217). -/
def cp0Numbers : List RegIdx := [3, 5, 6, 7, 8, 9, 11, 12, 13, 14, 15]

/-- The numbers that are not there are those of the TLB's registers and 16 to 31 (R211). -/
theorem mem_cp0Numbers_iff {rd : RegIdx} : rd ∈ cp0Numbers ↔ tlbRegister rd = false ∧ rd.toNat < 16 := by
  revert rd; decide

theorem tlbRegister_of_mem {rd : RegIdx} (h : rd ∈ ([0, 1, 2, 4, 10] : List RegIdx)) : tlbRegister rd = true := by
  revert rd; decide

theorem tlbRegister_unused {rd : RegIdx} (h : 16 ≤ rd.toNat) : tlbRegister rd = false := by
  revert rd; decide

theorem State.cp0Read_of_notMem (s : State) {rd : RegIdx} (h : rd ∉ cp0Numbers) : s.cp0Read rd = none := by
  unfold State.cp0Read
  split <;> simp_all [cp0Numbers]

theorem State.cp0Write_of_notMem (s : State) {rd : RegIdx} (v : Word) (h : rd ∉ cp0Numbers) : s.cp0Write rd v = s := by
  unfold State.cp0Write
  split <;> simp_all [cp0Numbers]

/-- The eleven CP0 registers with their values (R217). -/
def State.cp0Registers (s : State) : List (RegIdx × Word) :=
  [(3, s.bpc), (5, s.bda), (6, s.tar), (7, s.dcic.toWord), (8, s.badA), (9, s.bdam), (11, s.bpcm), (12, s.sr.toWord),
   (13, s.cause.toWord s.now.int), (14, s.epc), (15, prid s.params)]

theorem State.cp0Read_of_mem {s : State} {rd : RegIdx} {v : Word} (h : (rd, v) ∈ s.cp0Registers) :
    s.cp0Read rd = some v := by
  have hread : ∀ f ∈ s.cp0Registers, s.cp0Read f.1 = some f.2 := by
    simp only [State.cp0Registers, List.forall_mem_cons]
    exact ⟨rfl, rfl, rfl, rfl, rfl, rfl, rfl, rfl, rfl, rfl, rfl, List.forall_mem_nil _⟩
  exact hread _ h

/-! ### RFE -/

/-- R214 as a word: the two upper pairs of the status stack move down, the old pair stays. -/
theorem Status.toWord_popped (r : Status) :
    r.popped.toWord = (r.toWord &&& 0xFFFFFFF0) ||| ((r.toWord >>> 2) &&& 0xF) := by
  apply BitVec.eq_of_getLsbD_eq
  intro k hk
  rw [BitVec.getLsbD_or, BitVec.getLsbD_and, BitVec.getLsbD_and, BitVec.getLsbD_ushiftRight,
    Status.getLsbD_toWord _ hk, Status.getLsbD_toWord _ hk]
  by_cases hlow : k < 4
  · rw [Status.getLsbD_toWord _ (by omega)]
    unfold Status.popped
    interval_cases k <;> simp
  · unfold Status.popped
    interval_cases k <;> simp

theorem exec_rfe {s : State} (h : s.sr.kuc = false ∨ s.sr.cu.getLsbD 0 = true) :
    exec .rfe s = .next s.popStatus.finish := by
  show execRfe s = _
  rw [execRfe, State.cp0Denied_eq_false h]
  rfl

/-- Settles O51: a permitted RFE pops the status stack, and `finish` advances. -/
theorem returnFromException : Obligations.ReturnFromException := by
  intro s h
  exact ⟨_, exec_rfe h, Status.toWord_popped s.sr, regsKept_of_gpr rfl, rfl, ⟨rfl, rfl, rfl⟩, ⟨rfl, rfl⟩, rfl,
    ⟨rfl, rfl, rfl, rfl⟩, ⟨rfl, rfl, rfl, rfl⟩, ⟨fun _ => rfl, rfl, rfl, rfl⟩, ⟨rfl, rfl, rfl, rfl, rfl⟩, rfl⟩

/-! ### MFC0, and the unused registers -/

/-- The step leaves a pending load or none, and changes nothing else but the program counter. -/
structure OnlyPending (s t : State) (ld : Option PendingLoad) : Prop where
  regs : RegsKept s t
  ld : t.ld = ld
  advanced : Advanced s t
  hiLo : SameHiLo s t
  cp0 : SameCp0 s t
  memory : SameMemory s t
  outside : SameOutside s t
  entered : t.entered = s.entered

theorem loadBack_onlyPending (s : State) (rt : RegIdx) (v : Word) :
    OnlyPending s (s.loadBack rt v) (if rt = 0 then none else some ⟨rt, v⟩) where
  regs := regsKept_of_gpr rfl
  ld := rfl
  advanced := ⟨rfl, rfl, rfl⟩
  hiLo := ⟨rfl, rfl⟩
  cp0 := ⟨rfl, rfl, ⟨rfl, rfl, rfl, rfl⟩, ⟨rfl, rfl, rfl, rfl⟩⟩
  memory := ⟨fun _ => rfl, rfl, rfl, rfl⟩
  outside := ⟨rfl, rfl, rfl, rfl, rfl⟩
  entered := rfl

/-- `finish` is a load to x[0], whose value is discarded (R11). -/
theorem finish_onlyPending (s : State) : OnlyPending s s.finish none := loadBack_onlyPending s 0 0

/-- A permitted MFC0 of a register with a value is a delayed load of it (R212). -/
theorem exec_mfc0_of_some {s : State} {rd : RegIdx} {v : Word} (rt : RegIdx)
    (h : s.sr.kuc = false ∨ s.sr.cu.getLsbD 0 = true) (hread : s.cp0Read rd = some v) :
    exec (.mfc0 rt rd) s = .next (s.loadBack rt v) := by
  have hmem : rd ∈ cp0Numbers := by
    by_contra hne
    rw [s.cp0Read_of_notMem hne] at hread
    cases hread
  have htlb : tlbRegister rd = false := (mem_cp0Numbers_iff.mp hmem).1
  show execMfc0 rt rd s = _
  rw [execMfc0, State.cp0Denied_eq_false h, htlb, hread]
  rfl

/-- A permitted MFC0 of a register without a value is no operation, but for the registers of the TLB (R211). -/
theorem exec_mfc0_of_none {s : State} {rd : RegIdx} (rt : RegIdx) (h : s.sr.kuc = false ∨ s.sr.cu.getLsbD 0 = true)
    (htlb : tlbRegister rd = false) (hread : s.cp0Read rd = none) : exec (.mfc0 rt rd) s = .next s.finish := by
  show execMfc0 rt rd s = _
  rw [execMfc0, State.cp0Denied_eq_false h, htlb, hread]
  rfl

/-- Settles O45: each of the eleven registers has a value, and MFC0 is a load of it. -/
theorem mfc0Reads : Obligations.Mfc0Reads := by
  intro s rt rd v h hv
  have f := loadBack_onlyPending s rt v
  exact ⟨_, exec_mfc0_of_some rt h (State.cp0Read_of_mem hv), f.regs, f.ld, f.advanced, f.hiLo, f.cp0, f.memory, f.outside,
    f.entered⟩

/-- Of registers 16 to 31 MFC0 has nothing to load and MTC0 nothing to write (R211). -/
theorem exec_cp0Move_unused {s : State} {rt rd : RegIdx} {i : Instr} (hi : i ∈ [Instr.mfc0 rt rd, .mtc0 rt rd])
    (hrd : 16 ≤ rd.toNat) (h : s.sr.kuc = false ∨ s.sr.cu.getLsbD 0 = true) : exec i s = .next s.finish := by
  have htlb : tlbRegister rd = false := tlbRegister_unused hrd
  have hmem : rd ∉ cp0Numbers := fun hmem => absurd (mem_cp0Numbers_iff.mp hmem).2 (Nat.not_lt.mpr hrd)
  simp only [List.mem_cons, List.not_mem_nil, or_false] at hi
  obtain rfl | rfl := hi
  · exact exec_mfc0_of_none rt h htlb (s.cp0Read_of_notMem hmem)
  · rw [exec_mtc0 rt h htlb, s.cp0Write_of_notMem _ hmem]

/-- Settles O46: the registers of the TLB by the test that comes first, registers 16 to 31 as no operation. -/
theorem cp0NumbersNotThere : Obligations.Cp0NumbersNotThere := by
  intro s rt rd i hi
  refine ⟨fun htlb => ?_, fun hrd h => ?_⟩
  · rw [exec_cp0Move_denied hi (Bool.or_eq_true_iff.mpr (.inr (tlbRegister_of_mem htlb)))]
    exact raise_spec s .ri
  · have f := finish_onlyPending s
    exact ⟨_, exec_cp0Move_unused hi hrd h, f.regs, f.ld, f.advanced, f.hiLo, f.cp0, f.memory, f.outside, f.entered⟩

end Sys2Proof.Machine
end

section
/-! SUPPORT. Proof of the statement about user mode with Cu0 clear (60_exceptions.md R258, R259): of CP0 a step only logs status
bits, unless it enters an exception. -/

namespace Sys2Proof.Machine

/-! ### The control bits of DCIC -/

/-- Two DCIC values agree but for the six status bits (10_state.md R36). -/
def Dcic.SameControl (c d : Dcic) : Prop :=
  ∃ t w r da pc db, d = { c with t := t, w := w, r := r, da := da, pc := pc, db := db }

theorem Dcic.SameControl.toWord {c d : Dcic} (h : c.SameControl d) :
    d.toWord &&& 0xFFFFFFC0 = c.toWord &&& 0xFFFFFFC0 := by
  obtain ⟨t, w, r, da, pc, db, rfl⟩ := h
  apply BitVec.eq_of_getLsbD_eq
  intro k hk
  rw [BitVec.getLsbD_and, BitVec.getLsbD_and, Dcic.getLsbD_toWord _ hk, Dcic.getLsbD_toWord _ hk]
  interval_cases k <;> simp

/-! ### What a step may leave of CP0 -/

/-- Of the status register, the debug control and the breakpoint registers nothing differs but the bits that log an event:
SR.PE (R26) and the status bits of DCIC (60_exceptions.md R275). -/
structure LogsOnly (s t : State) : Prop where
  breakpoints : SameBreakpoints s t
  control : s.dcic.SameControl t.dcic
  sr : ∃ pe, t.sr = { s.sr with pe := pe }

theorem LogsOnly.refl (s : State) : LogsOnly s s :=
  ⟨sameBreakpoints_refl s, ⟨_, _, _, _, _, _, rfl⟩, ⟨_, rfl⟩⟩

theorem logsOnly_posted (s : State) : LogsOnly s s.posted :=
  ⟨⟨rfl, rfl, rfl, rfl⟩, ⟨_, _, _, _, _, _, rfl⟩, ⟨_, rfl⟩⟩

theorem logsOnly_fetched (s : State) : LogsOnly s s.fetched :=
  ⟨⟨rfl, rfl, rfl, rfl⟩, ⟨_, _, _, _, _, _, rfl⟩, ⟨_, rfl⟩⟩

theorem logsOnly_postDataDebug (s : State) (va : Word) (write : Bool) : LogsOnly s (s.postDataDebug va write) :=
  ⟨⟨rfl, rfl, rfl, rfl⟩, ⟨_, _, _, _, _, _, rfl⟩, ⟨_, rfl⟩⟩

theorem LogsOnly.noteParity {s t : State} (h : LogsOnly s t) (detected : Bool) : LogsOnly s (t.noteParity detected) where
  breakpoints := ⟨h.breakpoints.bpc, h.breakpoints.bpcm, h.breakpoints.bda, h.breakpoints.bdam⟩
  control := h.control
  sr := by
    obtain ⟨pe, hsr⟩ := h.sr
    exact ⟨_, by rw [State.noteParity_sr, hsr]⟩

theorem LogsOnly.trans {s u t : State} (h : LogsOnly s u) (g : LogsOnly u t) : LogsOnly s t where
  breakpoints :=
    ⟨g.breakpoints.bpc.trans h.breakpoints.bpc, g.breakpoints.bpcm.trans h.breakpoints.bpcm,
      g.breakpoints.bda.trans h.breakpoints.bda, g.breakpoints.bdam.trans h.breakpoints.bdam⟩
  control := by
    obtain ⟨_, _, _, _, _, _, hc⟩ := h.control
    obtain ⟨_, _, _, _, _, _, gc⟩ := g.control
    exact ⟨_, _, _, _, _, _, by rw [gc, hc]⟩
  sr := by
    obtain ⟨_, hsr⟩ := h.sr
    obtain ⟨_, gsr⟩ := g.sr
    exact ⟨_, by rw [gsr, hsr]⟩

/-- The machine stays in user mode: no exception is entered, and the registers that an entry saves into are kept too. -/
structure StaysUser (s t : State) : Prop where
  entered : t.entered = false
  logs : LogsOnly s t
  saved : SameSaved s t

/-- The machine enters kernel mode at an exception vector, with the status of user mode pushed (60_exceptions.md R251, R252). -/
structure EntersKernel (s t : State) : Prop where
  entered : t.entered = true
  breakpoints : SameBreakpoints s t
  control : s.dcic.SameControl t.dcic
  sr : ∃ pe, t.sr =
    { s.sr with pe := pe, kuo := s.sr.kup, ieo := s.sr.iep, kup := true, iep := s.sr.iec, kuc := false, iec := false }
  pc : t.pc ∈ (if s.sr.bev then [0xBFC00140, 0xBFC00180] else [0x80000040, 0x80000080] : List Word)

/-- The two vectors of a BEV (R252). -/
theorem Exc.vector_mem_of_bev (e : Exc) (bev : Bool) :
    e.vector bev ∈ (if bev then [0xBFC00140, 0xBFC00180] else [0x80000040, 0x80000080] : List Word) := by
  cases e <;> cases bev <;> simp [Exc.vector]

section UserMode

variable {s p t : State}

/-- An exception entry from user mode, once the status bits of the events before it are logged. -/
theorem LogsOnly.entersKernel (h : LogsOnly s p) (hu : s.sr.kuc = true) (e : Exc) (altered : Bool) :
    EntersKernel s (p.enterException e altered) where
  entered := rfl
  breakpoints := ⟨h.breakpoints.bpc, h.breakpoints.bpcm, h.breakpoints.bda, h.breakpoints.bdam⟩
  control := h.control
  sr := by
    obtain ⟨pe, hsr⟩ := h.sr
    exact ⟨pe, by rw [State.enterException_sr, hsr, Status.pushed, hu]⟩
  pc := by
    obtain ⟨pe, hsr⟩ := h.sr
    rw [State.enterException_pc, hsr]
    exact e.vector_mem_of_bev s.sr.bev

/-- An instruction in user mode with Cu0 clear: what would read or write CP0 is denied (48_cp0.md R210), and the others reach it
only to log a status bit or in an exception entry. -/
theorem execNext_user (hu : s.sr.kuc = true) (hd : s.cp0Denied = true) (he : s.entered = false) (h : ExecNext s t) :
    StaysUser s t ∨ EntersKernel s t := by
  have hlogs : LogsOnly s s := .refl s
  have hload (va : Word) : LogsOnly s ((s.postDataDebug va false).noteParity s.now.parityData) :=
    (logsOnly_postDataDebug s va false).noteParity _
  cases h with
  | cp0 _ _ hok | readCp0 _ _ hok | pop hok => rw [hd] at hok; cases hok
  | exception e altered => exact .inr (hlogs.entersKernel hu e altered)
  | dataDebug va write altered => exact .inr ((logsOnly_postDataDebug s va write).entersKernel hu .debug altered)
  | dataBus va altered => exact .inr ((hload va).entersKernel hu .dbe altered)
  | write | branch | link | hiLo | noop | load | store =>
    exact .inl ⟨he, ⟨⟨rfl, rfl, rfl, rfl⟩, ⟨_, _, _, _, _, _, rfl⟩, ⟨_, rfl⟩⟩, ⟨rfl, rfl, rfl, rfl⟩⟩

/-- What stands before the instruction at the fetch logs status bits only. -/
theorem StaysUser.of_logs (hl : LogsOnly s p) (hs : SameSaved s p) (h : StaysUser p t) : StaysUser s t where
  entered := h.entered
  logs := hl.trans h.logs
  saved := ⟨h.saved.cause.trans hs.cause, h.saved.epc.trans hs.epc, h.saved.badA.trans hs.badA, h.saved.tar.trans hs.tar⟩

/-- The fetch and what follows it, in user mode with Cu0 clear. -/
theorem fetchNext_user (hu : s.sr.kuc = true) (hd : s.cp0Denied = true) (h : FetchNext s t) :
    StaysUser s t ∨ EntersKernel s t := by
  have hp : LogsOnly s s.posted := logsOnly_posted s
  have hf : LogsOnly s s.fetched := logsOnly_fetched s
  cases h with
  | debug => exact .inr (hp.entersKernel hu .debug _)
  | address => exact .inr (hp.entersKernel hu (.adEL s.pc) _)
  | bus => exact .inr (hf.entersKernel hu .ibe _)
  | reserved => exact .inr (hf.entersKernel hu .ri _)
  | late i =>
    have hl : LogsOnly s { s.fetched with storeError := false } :=
      ⟨⟨rfl, rfl, rfl, rfl⟩, hf.control, hf.sr⟩
    exact .inr (hl.entersKernel hu .dbe _)
  | interrupt i => exact .inr (hf.entersKernel hu .int _)
  | instr i _ _ hexec =>
    rcases execNext_user (s := s.fetched) hu hd rfl (exec_next hexec) with hstay | hent
    · exact .inl (hstay.of_logs hf ⟨rfl, rfl, rfl, rfl⟩)
    · exact .inr
        { entered := hent.entered
          breakpoints :=
            ⟨hent.breakpoints.bpc, hent.breakpoints.bpcm, hent.breakpoints.bda, hent.breakpoints.bdam⟩
          control := hent.control
          sr := hent.sr
          pc := hent.pc }

end UserMode

/-- Settles O17: of the next states of a step without reset, those that enter no exception come from an instruction that may not
touch CP0. -/
theorem userModeConfined : Obligations.UserModeConfined := by
  intro s t hu hcu hreset hheld hstep
  have hd : s.cp0Denied = true := by rw [State.cp0Denied, hu, hcu]; rfl
  cases step_next hstep with
  | held k h => rw [hreset] at h; cases h
  | reset k _ h => rw [hheld] at h; cases h
  | run u _ _ hr =>
    rcases fetchNext_user hu hd hr with h | h
    · obtain ⟨hbpc, hbpcm, hbda, hbdam⟩ := h.logs.breakpoints
      obtain ⟨hcause, hepc, hbadA, htar⟩ := h.saved
      exact ⟨⟨hbpc, hbpcm, hbda, hbdam⟩, h.logs.control.toWord, .inl ⟨h.entered, h.logs.sr, hcause, hepc, hbadA, htar⟩⟩
    · obtain ⟨hbpc, hbpcm, hbda, hbdam⟩ := h.breakpoints
      exact ⟨⟨hbpc, hbpcm, hbda, hbdam⟩, h.control.toWord, .inr ⟨h.entered, h.sr, h.pc⟩⟩

end Sys2Proof.Machine
end

section
/-! SUPPORT. Proofs of the statements about the conditions of interrupts and breakpoints, exception entry, and reset
(60_exceptions.md R231 to R276, 70_reset_and_hazards.md R300, R301). -/

namespace Sys2Proof.Machine

/-! ### Words bit by bit -/

theorem ne_zero_iff_getLsbD {n : Nat} (v : BitVec n) : v ≠ 0 ↔ ∃ k < n, v.getLsbD k = true := by
  constructor
  · intro h
    by_contra hno
    refine h (BitVec.eq_of_getLsbD_eq fun k hk => ?_)
    have hclear : v.getLsbD k = false := Bool.eq_false_iff.mpr fun hbit => hno ⟨k, hk, hbit⟩
    exact hclear.trans BitVec.getLsbD_zero.symm
  · rintro ⟨k, _, hbit⟩ rfl
    simp at hbit

/-- Two words agree under a mask where they agree in each bit that it sets. -/
theorem and_mask_eq_iff {n : Nat} (a b m : BitVec n) :
    a &&& m = b &&& m ↔ ∀ k < n, m.getLsbD k = true → a.getLsbD k = b.getLsbD k := by
  constructor
  · intro h k _ hm
    have hbit := congrArg (BitVec.getLsbD · k) h
    simpa [hm] using hbit
  · intro h
    apply BitVec.eq_of_getLsbD_eq
    intro k hk
    rw [BitVec.getLsbD_and, BitVec.getLsbD_and]
    cases hm : m.getLsbD k
    · simp
    · rw [h k hk hm]

/-! ### The interrupt condition (R240) -/

/-- The software requests are the low two bits, the hardware lines that INTMASK lets through the six above. -/
theorem State.getLsbD_requests (s : State) (k : Nat) :
    s.requests.getLsbD k =
      if k < 2 then s.cause.sw.getLsbD k else !s.now.intMask && s.now.int.getLsbD (k - 2) := by
  rw [State.requests, BitVec.getLsbD_append]
  cases s.now.intMask <;> simp

/-- Settles O9: of the eight requests the low two are the software's. -/
theorem interruptCondition : Obligations.InterruptCondition := by
  intro s
  rw [State.interrupted, Bool.and_eq_true, bne_iff_ne, ne_zero_iff_getLsbD]
  refine and_congr_right fun _ => ?_
  simp only [BitVec.getLsbD_and, Bool.and_eq_true, State.getLsbD_requests]
  constructor
  · rintro ⟨k, hk, hreq, hmask⟩
    split at hreq
    · next hsw => exact .inl ⟨k, hsw, hreq, hmask⟩
    · next hhw =>
      obtain ⟨hon, hline⟩ := Bool.and_eq_true_iff.mp hreq
      exact .inr ⟨by simpa using hon, k - 2, by omega, hline, by rwa [Nat.sub_add_cancel (by omega)]⟩
  · rintro (⟨k, hk, hreq, hmask⟩ | ⟨hon, k, hk, hline, hmask⟩)
    · exact ⟨k, by omega, by rwa [if_pos hk], hmask⟩
    · exact ⟨k + 2, by omega, by rw [if_neg (by omega), hon, Nat.add_sub_cancel, hline]; rfl, hmask⟩

/-! ### The debug conditions (R271 to R276) -/

theorem State.nonSequential_iff (s : State) : s.nonSequential = true ↔ ∃ last, s.lastpc = some last ∧ s.pc ≠ last + 4 := by
  unfold State.nonSequential
  cases s.lastpc <;> simp

theorem State.dbgOn_iff (s : State) :
    s.dbgOn = true ↔
      s.dcic.de = true ∧ ((s.sr.kuc = true ∧ s.dcic.ud = true) ∨ (s.sr.kuc = false ∧ s.dcic.kd = true)) := by
  simp [State.dbgOn]

theorem State.pcHit_iff (s : State) :
    s.pcHit = true ↔
      s.dbgOn = true ∧ s.dcic.pce = true ∧ ∀ k < 32, s.bpcm.getLsbD k = true → s.pc.getLsbD k = s.bpc.getLsbD k := by
  rw [State.pcHit, Bool.and_eq_true, Bool.and_eq_true, beq_iff_eq, and_mask_eq_iff, and_assoc]

theorem State.traceHit_iff (s : State) :
    s.traceHit = true ↔
      s.dbgOn = true ∧ s.dcic.te = true ∧ ∃ last, s.lastpc = some last ∧ s.pc ≠ last + 4 := by
  rw [State.traceHit, Bool.and_eq_true, Bool.and_eq_true, State.nonSequential_iff, and_assoc]

theorem State.daHit_iff (s : State) (va : Word) (write : Bool) :
    s.daHit va write = true ↔
      s.dbgOn = true ∧ s.dcic.dae = true ∧ (if write then s.dcic.dw = true else s.dcic.dr = true) ∧
        ∀ k < 32, s.bdam.getLsbD k = true → va.getLsbD k = s.bda.getLsbD k := by
  have henable : (if write then s.dcic.dw else s.dcic.dr) = true ↔
      (if write then s.dcic.dw = true else s.dcic.dr = true) := by cases write <;> rfl
  rw [State.daHit, Bool.and_eq_true, Bool.and_eq_true, Bool.and_eq_true, beq_iff_eq, and_mask_eq_iff, henable]
  tauto

/-- Settles O11, condition by condition. -/
theorem debugConditions : Obligations.DebugConditions :=
  fun s => ⟨s.dbgOn_iff, s.pcHit_iff, s.traceHit_iff, s.daHit_iff⟩

/-! ### The status stack (R251, 48_cp0.md R214) -/

/-- R251 as a word: the stack moves up by one pair, and the current pair becomes kernel mode with interrupts off. -/
theorem Status.toWord_pushed (r : Status) :
    r.pushed.toWord = (r.toWord &&& 0xFFFFFFC0) ||| ((r.toWord &&& 0xF) <<< 2) := by
  apply BitVec.eq_of_getLsbD_eq
  intro k hk
  rw [BitVec.getLsbD_or, BitVec.getLsbD_and, BitVec.getLsbD_shiftLeft, BitVec.getLsbD_and, Status.getLsbD_toWord _ hk,
    Status.getLsbD_toWord _ hk, Status.getLsbD_toWord _ (by omega : k - 2 < 32)]
  unfold Status.pushed
  interval_cases k <;> simp

/-- A pop keeps what lies above the two lower pairs. -/
theorem Status.toWord_popped_high (r : Status) : r.popped.toWord &&& 0xFFFFFFF0 = r.toWord &&& 0xFFFFFFF0 := by
  rw [Status.toWord_popped, BitVec.and_or_distrib_right, BitVec.and_assoc, BitVec.and_assoc]
  simp

/-- A pop undoes a push in the two lower pairs. -/
theorem Status.toWord_popped_pushed_low (r : Status) : r.pushed.popped.toWord &&& 0xF = r.toWord &&& 0xF := by
  apply BitVec.eq_of_getLsbD_eq
  intro k hk
  rw [BitVec.getLsbD_and, BitVec.getLsbD_and, Status.getLsbD_toWord _ hk, Status.getLsbD_toWord _ hk]
  unfold Status.popped Status.pushed
  interval_cases k <;> simp

/-- Settles O53: an entry leaves kernel mode, where RFE is permitted. -/
theorem statusStack : Obligations.StatusStack := by
  rintro s _ e altered rfl
  exact ⟨s.sr.toWord_pushed, _, exec_rfe (.inl rfl), s.sr.toWord_popped_pushed_low, s.sr.pushed.toWord_popped_high⟩

/-- Settles O54, by evaluation at the default table. -/
theorem defaultExceptionCodes : Obligations.DefaultExceptionCodes := fun _ _ => rfl

/-! ### Reset (R300, R301) -/

theorem step_of_reset {s : State} {k : ResetKind} (h : s.now.reset = some k) :
    step s = .next { s.tick with resetHeld := some k } := by
  unfold step cycle
  rw [h]

theorem step_of_resetHeld {s : State} {k : ResetKind} (h : s.now.reset = none) (hk : s.resetHeld = some k) :
    step s = .next (s.applyReset k).tick := by
  unfold step cycle
  rw [h, hk]

/-- Settles O13: the event takes the rest of the state from `State.reset`, which `stateAfterColdReset` evaluates. -/
theorem resetEvent : Obligations.ResetEvent := by
  intro s k hreset hk
  obtain ⟨hsr, hcause, hdcic, hbpcm, hbdam, hpc, hnpc, hds, hld, hlast, herror, hzero⟩ := stateAfterColdReset
  refine ⟨_, step_of_resetHeld hreset hk, hsr, hcause, hdcic, hbpcm, hbdam, hpc, hnpc, hds, hld, hlast, herror, rfl, hzero,
    ?_, fun _ => rfl, rfl, rfl, rfl⟩
  rintro rfl
  exact ⟨rfl, rfl, rfl, rfl⟩

/-- Settles O14: the step only remembers the reset and uses up its inputs. -/
theorem resetHolds : Obligations.ResetHolds := by
  intro s k h
  exact ⟨_, step_of_reset h, rfl, fun _ => rfl, rfl, rfl, rfl, rfl, ⟨rfl, rfl⟩,
    ⟨rfl, rfl, ⟨rfl, rfl, rfl, rfl⟩, ⟨rfl, rfl, rfl, rfl⟩⟩, ⟨fun _ => rfl, rfl, rfl, rfl⟩, rfl, rfl⟩

end Sys2Proof.Machine
end

section
/-! SUPPORT. How each instruction ends, with what the model says of it before it runs: whether it ends at decode, whether it is a
branch, and what the next fetch of the stream sees behind it. From this the statement about the asynchronous events
(60_exceptions.md R240, R245). -/

namespace Sys2Proof.Machine

/-! ### The instructions that are named -/

theorem writesHiLo_iff (i : Instr) : writesHiLo i = true ↔ WritesHiLo i := by
  cases i <;> simp [writesHiLo, WritesHiLo]

/-- The twenty jumps and branches, as a test. -/
def isBranch : Instr → Bool
  | .j _ | .jal _ | .jr _ | .jalr _ _ | .beq _ _ _ | .bne _ _ _ | .blez _ _ | .bgtz _ _ | .bltz _ _ | .bgez _ _
  | .bltzal _ _ | .bgezal _ _ | .bc0t _ | .bc0f _ | .bc1t _ | .bc1f _ | .bc2t _ | .bc2f _ | .bc3t _ | .bc3f _ => true
  | _ => false

theorem isBranch_iff (i : Instr) : isBranch i = true ↔ IsBranch i := by
  cases i <;> simp [isBranch, IsBranch]

/-! ### What a fetch reads of a state -/

/-- The parts of the state that decide what a fetch at an address delivers: the mode, the configuration, memory and what is known
of earlier stores. -/
structure SameCode (s t : State) : Prop where
  mode : t.sr.kuc = s.sr.kuc
  params : t.params = s.params
  mem : t.mem = s.mem
  storedTo : t.storedTo = s.storedTo
  failed : t.failed = s.failed
  draws : t.draws = s.draws

/-! ### The ways to end -/

/-- How an instruction ends that answers `r` in `s`, where `stops` says that it ends at decode, `branch` that it is a jump or
branch, and `behind` is the state in which the stream goes on (70_reset_and_hazards.md R315). -/
inductive InstrEnds (s : State) : (stops branch : Bool) → (behind : State) → (r : Result) → Prop
  | decode {b : Bool} (e : Exc) (altered : Bool) (h : DecodeStage e) (hb : b = true → ∃ z, s.sr.usable z = false) :
      InstrEnds s true b s (.next (s.enterException e altered))
  | inSlot (h : s.ds ≠ none) : InstrEnds s true true s (.fault .branchInDelaySlot)
  | later (p : State) (e : Exc) (altered : Bool) (h : ¬DecodeStage e) (hbev : p.sr.bev = s.sr.bev)
      (hparams : p.params = s.params) : InstrEnds s false false s (.next (p.enterException e altered))
  | refused (r : Refusal) : InstrEnds s false false s (.refused r)
  | transfers (t : State) (hds : t.ds.isSome = true) (he : t.entered = s.entered) (hc : SameCode s t) :
      InstrEnds s false true s (.next t)
  | completes {behind : State} (t : State) (hds : t.ds = none) (he : t.entered = s.entered) (hc : SameCode behind t) :
      InstrEnds s false false behind (.next t)

section SharedOperations

variable (s : State)

theorem raise_ends {e : Exc} (h : DecodeStage e) : InstrEnds s true false s (raise e s) :=
  .decode e _ h nofun

theorem raise_endsLater {e : Exc} (h : ¬DecodeStage e) : InstrEnds s false false s (raise e s) :=
  .later s e _ h rfl rfl

theorem writeBack_ends (rd : RegIdx) (v : Word) : InstrEnds s false false s (.next (s.writeBack rd v)) :=
  .completes _ rfl rfl ⟨rfl, rfl, rfl, rfl, rfl, rfl⟩

theorem setHiLo_ends (hi lo : Word) : InstrEnds s false false s (.next (s.setHiLo hi lo).finish) :=
  .completes _ rfl rfl ⟨rfl, rfl, rfl, rfl, rfl, rfl⟩

theorem trapOrWrite_ends (rd : RegIdx) (n : Int) (v : Word) : InstrEnds s false false s (trapOrWrite s rd n v) := by
  unfold trapOrWrite
  split
  · exact raise_endsLater s id
  · exact writeBack_ends s rd v

theorem jumpOrBranch_ends (taken : Bool) (target : Word) :
    InstrEnds s s.ds.isSome true s (jumpOrBranch s taken target) := by
  cases h : s.ds with
  | some d =>
    rw [jumpOrBranch_inSlot taken target (by simp [h])]
    exact .inSlot (by simp [h])
  | none =>
    rw [jumpOrBranch, h]
    exact .transfers _ rfl rfl ⟨rfl, rfl, rfl, rfl, rfl, rfl⟩

theorem jumpOrBranchLink_ends (rd : RegIdx) (taken : Bool) (target : Word) :
    InstrEnds s s.ds.isSome true s (jumpOrBranchLink s rd taken target) := by
  cases h : s.ds with
  | some d =>
    rw [jumpOrBranchLink_inSlot rd taken target (by simp [h])]
    exact .inSlot (by simp [h])
  | none =>
    rw [jumpOrBranchLink, h]
    exact .transfers _ rfl rfl ⟨rfl, rfl, rfl, rfl, rfl, rfl⟩

theorem copBranch_ends (z : BitVec 2) (sense : Bool) (offset : BitVec 16) :
    InstrEnds s (!s.sr.usable z || s.ds.isSome) true s (copBranch s z sense offset) := by
  cases hu : s.sr.usable z with
  | false =>
    rw [copBranch, hu]
    exact .decode (.cpU z) _ trivial fun _ => ⟨z, hu⟩
  | true =>
    rw [copBranch, hu]
    exact jumpOrBranch_ends s _ _

theorem unimplementedCop_ends (z : BitVec 2) (usable : Bool) :
    InstrEnds s (!usable) false s (unimplementedCop s z usable) := by
  cases usable with
  | true => exact .refused _
  | false => exact raise_ends s (e := .cpU z) trivial

theorem loadAccess_ends (va : Word) (aligned : Bool) (span : Word × Nat) (rt : RegIdx) (v : Word) :
    InstrEnds s false false s (loadAccess s va aligned span rt v) := by
  rw [loadAccess_eq]
  split
  · exact raise_endsLater s id
  split
  · exact .refused _
  split
  · exact .later _ .debug _ id rfl rfl
  split
  · exact .later _ .dbe _ id rfl rfl
  · exact .completes _ rfl rfl ⟨rfl, rfl, rfl, rfl, rfl, rfl⟩

/-- A store that does not pass its checks changes nothing for the stream; one that does leaves its memory behind it. -/
theorem storeAccess_ends (o : StoreOp) : InstrEnds s false false (s.stored o) (storeAccess s o) := by
  cases hruns : s.storeRuns o with
  | true =>
    rw [storeAccess_next o ((storeRuns_iff s o).mp hruns), stored_of_runs hruns]
    exact .completes _ rfl rfl ⟨rfl, rfl, rfl, rfl, rfl, rfl⟩
  | false =>
    rw [stored_of_stops hruns, storeAccess]
    split
    · exact raise_endsLater s id
    next hpass =>
    split
    · exact .refused _
    next hcache =>
    split
    · exact .later _ .debug _ id rfl rfl
    next htrap =>
    have hall : s.storeRuns o = true := by
      simp only [Bool.not_eq_true, Bool.or_eq_false_iff, Bool.not_eq_false'] at hpass hcache htrap
      rw [State.storeRuns, hpass.1, hpass.2, hcache, htrap]
      rfl
    rw [hruns] at hall
    cases hall

theorem mfc0_ends (rt rd : RegIdx) :
    InstrEnds s (s.cp0Denied || tlbRegister rd) false s (exec (.mfc0 rt rd) s) := by
  cases h : s.cp0Denied || tlbRegister rd with
  | true =>
    rw [exec_cp0Move_denied List.mem_cons_self h]
    exact raise_ends s (e := .ri) trivial
  | false =>
    show InstrEnds s false false s (execMfc0 rt rd s)
    rw [execMfc0, h, if_neg Bool.false_ne_true]
    cases s.cp0Read rd with
    | some v => exact .completes _ rfl rfl ⟨rfl, rfl, rfl, rfl, rfl, rfl⟩
    | none => exact .completes _ rfl rfl ⟨rfl, rfl, rfl, rfl, rfl, rfl⟩

/-- Where MTC0 raises RI the stream goes on as before it: `cp0Write` writes no register of the TLB (48_cp0.md R211). -/
theorem State.behind_mtc0_of_stops {rt rd : RegIdx} (h : (s.cp0Denied || tlbRegister rd) = true) :
    s.behind (.mtc0 rt rd) = s := by
  cases hd : s.cp0Denied with
  | true => exact if_pos hd
  | false =>
    rw [hd, Bool.false_or] at h
    have hmem : rd ∉ cp0Numbers := fun hmem => by
      rw [(mem_cp0Numbers_iff.mp hmem).1] at h
      cases h
    rw [State.behind, hd, s.cp0Write_of_notMem _ hmem]
    rfl

theorem mtc0_ends (rt rd : RegIdx) :
    InstrEnds s (s.cp0Denied || tlbRegister rd) false (s.behind (.mtc0 rt rd)) (exec (.mtc0 rt rd) s) := by
  cases h : s.cp0Denied || tlbRegister rd with
  | true =>
    rw [exec_cp0Move_denied (List.mem_cons_of_mem _ List.mem_cons_self) h, s.behind_mtc0_of_stops h]
    exact raise_ends s (e := .ri) trivial
  | false =>
    show InstrEnds s false false (s.behind (.mtc0 rt rd)) (execMtc0 rt rd s)
    rw [execMtc0, h, State.behind, (Bool.or_eq_false_iff.mp h).1]
    exact .completes _ rfl (State.cp0Write_entered s rd _) ⟨rfl, rfl, rfl, rfl, rfl, rfl⟩

theorem rfe_ends : InstrEnds s s.cp0Denied false (s.behind .rfe) (exec .rfe s) := by
  show InstrEnds s s.cp0Denied false (s.behind .rfe) (execRfe s)
  rw [execRfe, State.behind]
  cases s.cp0Denied with
  | true => exact raise_ends s (e := .ri) trivial
  | false => exact .completes _ rfl rfl ⟨rfl, rfl, rfl, rfl, rfl, rfl⟩

end SharedOperations

/-- Every instruction ends as one of `InstrEnds`, by the shared operation that its meaning is. -/
theorem exec_ends (i : Instr) (s : State) :
    InstrEnds s (decodeStops i s) (isBranch i) (s.behind i) (exec i s) := by
  cases i
  case add | sub | addi => exact trapOrWrite_ends s _ _ _
  case mfc0 => exact mfc0_ends s _ _
  case mtc0 => exact mtc0_ends s _ _
  case rfe => exact rfe_ends s
  case sb | sh | sw | swl | swr => exact storeAccess_ends s _
  case lb | lbu | lh | lhu | lw | lwl | lwr => exact loadAccess_ends s _ _ _ _ _
  case lwc0 | swc0 => exact .refused _
  case syscall => exact raise_ends s (e := .sys) trivial
  case brk => exact raise_ends s (e := .bp) trivial
  case tlbr | tlbwi | tlbwr | tlbp => exact raise_ends s (e := .ri) trivial
  case j | jr | beq | bne | blez | bgtz | bltz | bgez => exact jumpOrBranch_ends s _ _
  case jal | jalr | bltzal | bgezal => exact jumpOrBranchLink_ends s _ _ _
  case bc0f | bc0t | bc1f | bc1t | bc2f | bc2t | bc3f | bc3t => exact copBranch_ends s _ _ _
  case cfc0 | ctc0 | cop0 | mfc1 | cfc1 | mtc1 | ctc1 | cop1 | mfc2 | cfc2 | mtc2 | ctc2 | cop2 | mfc3 | cfc3 | mtc3
      | ctc3 | cop3 | lwc1 | swc1 | lwc2 | swc2 | lwc3 | swc3 => exact unimplementedCop_ends s _ _
  case mult | multu | div | divu | mthi | mtlo => exact setHiLo_ends s _ _
  all_goals exact writeBack_ends s _ _

/-! ### The exceptions of decode, told from the others -/

theorem Exc.code_mem_of_decodeStage {e : Exc} (c : ExcCodes) (h : DecodeStage e) :
    e.code c ∈ [c.sys, c.bp, c.ri, c.cpU] := by
  cases e
  case sys | bp | ri | cpU => simp [Exc.code]
  all_goals exact h.elim

theorem Exc.code_mem_of_not_decodeStage {e : Exc} (c : ExcCodes) (h : ¬DecodeStage e) (hd : e ≠ .debug) :
    e.code c ∈ [c.int, c.adEL, c.adES, c.ibe, c.dbe, c.ovf] := by
  cases e
  case debug => exact absurd rfl hd
  case sys | bp | ri | cpU => exact absurd trivial h
  all_goals simp [Exc.code]

theorem ExcCodesDiffer.disjoint {c : ExcCodes} (h : ExcCodesDiffer c) :
    List.Disjoint [c.sys, c.bp, c.ri, c.cpU] [c.int, c.adEL, c.adES, c.ibe, c.dbe, c.ovf] := by
  have hperm : List.Perm [c.int, c.adEL, c.adES, c.ibe, c.dbe, c.sys, c.bp, c.ri, c.cpU, c.ovf]
      ([c.sys, c.bp, c.ri, c.cpU] ++ [c.int, c.adEL, c.adES, c.ibe, c.dbe, c.ovf]) :=
    (List.perm_append_comm (l₁ := [c.int, c.adEL, c.adES, c.ibe, c.dbe])
      (l₂ := [c.sys, c.bp, c.ri, c.cpU])).append_right [c.ovf]
  exact List.disjoint_of_nodup_append (hperm.nodup_iff.mp h)

/-- An entry of Debug has the code of Bp and another vector; the other exceptions behind decode have codes of their own. -/
theorem Entered.decodeStage_of_enterException {s p : State} {e e' : Exc} {altered altered' : Bool}
    (hdiff : ExcCodesDiffer s.params.excCode) (hbev : p.sr.bev = s.sr.bev) (hparams : p.params = s.params)
    (h : Entered s (p.enterException e' altered') e altered) (he : DecodeStage e) : DecodeStage e' := by
  by_contra he'
  by_cases hd : e' = .debug
  · subst hd
    have hpc := h.pc
    rw [State.enterException_pc, hbev, if_neg (by rintro rfl; exact he)] at hpc
    cases hb : s.sr.bev <;> rw [hb] at hpc <;> exact absurd hpc (by decide)
  · have hcode : e'.code s.params.excCode = e.code s.params.excCode := hparams ▸ h.code
    exact hdiff.disjoint (e.code_mem_of_decodeStage _ he) (hcode ▸ e'.code_mem_of_not_decodeStage _ he' hd)

/-! ### Which instructions end at decode -/

/-- The answer is an exception of decode or the stop of a branch in a delay slot (60_exceptions.md R245 item 3). -/
def EndsAtDecode (s : State) (r : Result) : Prop :=
  (∃ t e altered, DecodeStage e ∧ r = .next t ∧ Entered s t e altered) ∨ r = .fault .branchInDelaySlot

theorem InstrEnds.endsAtDecode {s behind : State} {branch : Bool} {r : Result} (h : InstrEnds s true branch behind r) :
    EndsAtDecode s r := by
  cases h with
  | decode e altered he => exact .inl ⟨_, e, altered, he, rfl, enterException_spec s e altered⟩
  | inSlot => exact .inr rfl

theorem InstrEnds.not_endsAtDecode {s behind : State} {branch : Bool} {r : Result} (hent : s.entered = false)
    (hdiff : ExcCodesDiffer s.params.excCode) (h : InstrEnds s false branch behind r) : ¬EndsAtDecode s r := by
  rintro (⟨t, e, altered, he, rfl, htaken⟩ | rfl)
  · cases h with
    | later p e' altered' he' hbev hparams => exact he' (htaken.decodeStage_of_enterException hdiff hbev hparams he)
    | transfers _ _ hkept | completes _ _ hkept =>
      have := htaken.entered
      rw [hkept, hent] at this
      cases this
  · cases h

/-! ### Asynchronous events -/

theorem interruptAt_spec (s : State) (e : Exc) (i : Instr) :
    ∃ t altered, Entered s t e altered ∧ s.interruptAt e i = .next t ∧
      (altered = true ↔ WritesHiLo i ∨ (s.past i).streamWrites = true) :=
  ⟨_, _, enterException_spec s e _, rfl, by rw [Bool.or_eq_true, writesHiLo_iff]⟩

/-- A step that comes to an instruction is `runInstr` on it. -/
theorem step_of_runInstr {s t : State} {i : Instr} (hf : s.FetchesWord) (hi : decodeWord (s.codeAt s.pc) = .instr i)
    (hr : runInstr s.fetched i = .next t) : step s = .next (t.after s) := by
  rw [step_of_fetch hf.reset hf.held, fetchAndRun_of_fetches hf, runWord_instr hi, hr]

/-- Settles O8: the events in their order behind decode, and which instructions end there by `exec_ends`. -/
theorem asynchronousEvents : Obligations.AsynchronousEvents := by
  refine ⟨fun s i hf hi hstops => ⟨fun hdue => ?_, fun hnot hint => ?_⟩,
    fun s i => ⟨fun hstops => ?_, fun hent hdiff h => ?_⟩⟩
  · have hrun : runInstr s.fetched i = State.interruptAt { s.fetched with storeError := false } .dbe i := by
      have hlate : s.fetched.storeErrorDue = true := Bool.and_eq_true_iff.mpr hdue
      rw [runInstr, hstops, if_neg Bool.false_ne_true, if_pos hlate]
    obtain ⟨t, altered, hentered, hnext, haltered⟩ := interruptAt_spec { s.fetched with storeError := false } .dbe i
    exact ⟨t, altered, hentered, step_of_runInstr hf hi (hrun.trans hnext), haltered⟩
  · have hrun : runInstr s.fetched i = s.fetched.interruptAt .int i := by
      have hlate : ¬s.fetched.storeErrorDue = true := fun h => hnot (Bool.and_eq_true_iff.mp h)
      have hon : s.fetched.interrupted = true := hint
      rw [runInstr, hstops, if_neg Bool.false_ne_true, if_neg hlate, if_pos hon]
    obtain ⟨t, altered, hentered, hnext, haltered⟩ := interruptAt_spec s.fetched .int i
    exact ⟨t, altered, hentered, step_of_runInstr hf hi (hrun.trans hnext), haltered⟩
  · have hends := exec_ends i s
    rw [hstops] at hends
    exact hends.endsAtDecode
  · have hends := exec_ends i s
    cases hstops : decodeStops i s with
    | true => rfl
    | false =>
      rw [hstops] at hends
      exact absurd h (hends.not_endsAtDecode hent hdiff)

end Sys2Proof.Machine
end

section
/-! SUPPORT. Proof of the statement about the breakpoints of a fetch and the stream of instructions behind it
(60_exceptions.md R271 to R275, 70_reset_and_hazards.md R315). -/

namespace Sys2Proof.Machine

/-! ### The debug conditions at the fetch -/

theorem fetchAndRun_of_stop {s : State} (ht : s.traceHit = true) (he : s.entered = true) :
    fetchAndRun s = .fault .traceAtExceptionVector := by
  rw [fetchAndRun, ht, he]
  rfl

theorem fetchAndRun_of_trap {s : State} (h : s.pcHit = true ∨ s.traceHit = true)
    (hstop : ¬(s.traceHit = true ∧ s.entered = true)) (htr : s.dcic.tr = true) :
    fetchAndRun s = .next (s.posted.enterException .debug s.posted.writesBehind) := by
  rw [← Bool.or_eq_true] at h
  rw [← Bool.and_eq_true, Bool.not_eq_true] at hstop
  rw [fetchAndRun, atFetch_eq, hstop, h, htr]
  rfl

/-! ### What a fetch at an address would deliver -/

section SameCode

variable {s t : State} (h : SameCode s t)
include h

theorem SameCode.cellOf_eq (va : Word) : t.cellOf va = s.cellOf va := by
  rw [State.cellOf, State.cellOf, h.params]

theorem SameCode.regionOf_eq (va : Word) : t.regionOf va = s.regionOf va := by
  rw [State.regionOf, State.regionOf, h.params, h.cellOf_eq]

theorem SameCode.readByte_eq (kind : Access) (va : Word) : t.readByte kind va = s.readByte kind va := by
  unfold State.readByte
  rw [h.regionOf_eq, h.cellOf_eq, h.mem, h.failed, h.draws]

theorem SameCode.codeAt_eq (va : Word) : t.codeAt va = s.codeAt va := by
  simp only [State.codeAt, h.params, h.readByte_eq]

theorem SameCode.delivers_eq (va : Word) : t.delivers va = s.delivers va := by
  simp only [State.delivers, State.fetchDenied, State.segmentDenied, State.platformBerr, h.mode, h.regionOf_eq]

theorem SameCode.unknownWord_eq (va : Word) : t.unknownWord va = s.unknownWord va := by
  simp only [State.unknownWord, State.staleCode, h.storedTo, h.failed, h.cellOf_eq, h.regionOf_eq]

theorem SameCode.instrAt_eq (va : Word) : t.instrAt va = s.instrAt va := by
  unfold State.instrAt
  rw [h.delivers_eq, h.unknownWord_eq, h.codeAt_eq]

theorem SameCode.mulDivAt_eq (va : Word) : t.mulDivAt va = s.mulDivAt va := by
  rw [State.mulDivAt, State.mulDivAt, h.delivers_eq, h.unknownWord_eq, h.instrAt_eq]

end SameCode

theorem instrAt_eq_none_iff (s : State) (va : Word) : s.instrAt va = none ↔ ∀ i, ¬s.InstrAt va i := by
  simp only [Option.eq_none_iff_forall_ne_some, ne_eq, instrAt_iff]

theorem mulDivAt_iff (s : State) (va : Word) :
    s.mulDivAt va = true ↔
      s.Delivers va ∧ (s.UnknownWord va ∨ ∃ i, WritesHiLo i ∧ decodeWord (s.wordAt va) = .instr i) := by
  rw [State.mulDivAt, Bool.and_eq_true, Bool.or_eq_true, delivers_iff, unknownWord_iff, Option.any_eq_true]
  refine and_congr_right fun hd => ?_
  by_cases hu : s.UnknownWord va
  · simp only [hu, true_or]
  · have hat (i : Instr) : s.instrAt va = some i ↔ decodeWord (s.wordAt va) = .instr i :=
      (instrAt_iff s va i).trans ⟨fun h => h.2.2, fun h => ⟨hd, hu, h⟩⟩
    simp only [hu, false_or, hat, writesHiLo_iff, and_comm]

/-! ### Behind the instruction at `pc`, before it is fetched -/

theorem writesBehind_of_noFetch {s : State} (h : ¬s.MayFetch s.pc ∨ s.FetchBusError) :
    s.writesBehind = (s.skipped (s.npc + 4)).streamWrites := by
  rw [← fetchDenied_iff, ← fetchBerr_iff, ← Bool.or_eq_true] at h
  exact if_pos h

section Fetched

variable {s : State} (ha : s.MayFetch s.pc) (hb : ¬s.FetchBusError)
include ha hb

theorem fetch_passes : (s.fetchDenied s.pc || s.fetchBerr) = false := by
  rw [Bool.or_eq_false_iff, ← Bool.not_eq_true, ← Bool.not_eq_true, fetchDenied_iff, fetchBerr_iff, not_not]
  exact ⟨ha, hb⟩

theorem writesBehind_of_unknown (hu : s.UnknownWord s.pc) : s.writesBehind = true := by
  rw [State.writesBehind, fetch_passes ha hb, if_neg Bool.false_ne_true, if_pos ((unknownWord_iff s s.pc).mpr hu)]

variable (hu : ¬s.UnknownWord s.pc)
include hu

theorem writesBehind_of_instr {i : Instr} (hi : decodeWord (s.wordAt s.pc) = .instr i) :
    s.writesBehind = (s.past i).streamWrites := by
  rw [State.writesBehind, fetch_passes ha hb, if_neg Bool.false_ne_true, if_neg (fun h => hu ((unknownWord_iff s s.pc).mp h)),
    codeAt_of_known hu, hi]

theorem writesBehind_of_other (hi : ∀ i, decodeWord (s.wordAt s.pc) ≠ .instr i) :
    s.writesBehind = (s.skipped (s.npc + 4)).streamWrites := by
  rw [State.writesBehind, fetch_passes ha hb, if_neg Bool.false_ne_true, if_neg (fun h => hu ((unknownWord_iff s s.pc).mp h)),
    codeAt_of_known hu]
  cases h : decodeWord (s.wordAt s.pc) with
  | instr i => exact absurd h (hi i)
  | _ => rfl

end Fetched

/-! ### The state behind an instruction -/

/-- The instruction raises an exception or stops. -/
def Ineffective (r : Result) : Prop := ∀ t, r = .next t → t.entered = true

theorem State.past_of_completes {s t : State} {i : Instr} (h : exec i s = .next t) (he : t.entered = false) :
    s.past i = t := by
  rw [State.past, h]
  exact if_neg (by rw [he]; exact Bool.false_ne_true)

theorem State.past_of_ineffective {s : State} {i : Instr} (h : Ineffective (exec i s)) :
    s.past i = s.skipped (s.thirdAfter i) := by
  unfold State.past
  cases hr : exec i s with
  | next t => exact if_pos (h t hr)
  | _ => rfl

/-- With every unit usable and outside a delay slot a jump or branch transfers. -/
theorem InstrEnds.transfers_of_branch {s behind : State} {stops : Bool} {r : Result} (hds : s.ds = none)
    (hu : ∀ z, s.sr.usable z = true) (h : InstrEnds s stops true behind r) : ∃ t, r = .next t ∧ t.ds.isSome = true := by
  cases h with
  | decode e altered he hb =>
    obtain ⟨z, hz⟩ := hb rfl
    rw [hu z] at hz
    cases hz
  | inSlot h => exact absurd hds h
  | transfers t ht => exact ⟨t, rfl, ht⟩

/-- Only a jump or branch leaves a delay-slot record. -/
theorem InstrEnds.ds_of_not_branch {s behind t : State} {stops : Bool} {r : Result} (h : InstrEnds s stops false behind r)
    (hr : r = .next t) : t.ds = none := by
  cases h with
  | decode | later => cases hr; rfl
  | refused => cases hr
  | completes _ hds => cases hr; exact hds

theorem State.thirdAfter_of_not_branch (s : State) {i : Instr} (h : ¬IsBranch i) : s.thirdAfter i = s.npc + 4 := by
  rw [← isBranch_iff, Bool.not_eq_true] at h
  have hends := exec_ends i s.branchable
  rw [h] at hends
  unfold State.thirdAfter
  cases hr : exec i s.branchable with
  | next t =>
    have hds : t.ds = none := hends.ds_of_not_branch hr
    exact if_neg (by rw [hds]; exact Bool.false_ne_true)
  | _ => rfl

theorem State.thirdAfter_of_branch (s : State) {i : Instr} (h : IsBranch i) :
    ∃ t, exec i s.branchable = .next t ∧ s.thirdAfter i = t.npc := by
  have hends := exec_ends i s.branchable
  rw [(isBranch_iff i).mpr h] at hends
  obtain ⟨t, ht, hds⟩ := hends.transfers_of_branch rfl (Status.usable_all s.sr)
  refine ⟨t, ht, ?_⟩
  rw [State.thirdAfter, ht]
  exact if_pos hds

/-! ### The two instructions next in the stream -/

/-- Behind an instruction that completes the stream is fetched as from the state that it leaves. -/
theorem InstrEnds.sameCode {s behind t : State} {stops branch : Bool} {r : Result} (h : InstrEnds s stops branch behind r)
    (hr : r = .next t) (he : t.entered = false) : SameCode behind t := by
  cases h with
  | decode | later => cases hr; cases he
  | inSlot | refused => cases hr
  | transfers _ _ _ hc | completes _ _ _ hc => cases hr; exact hc

/-- Behind an instruction without effect it is fetched as from the state before. -/
theorem InstrEnds.behind_eq {s behind : State} {stops branch : Bool} {r : Result} (hent : s.entered = false)
    (h : InstrEnds s stops branch behind r) (hr : Ineffective r) : behind = s := by
  cases h with
  | completes t _ he =>
    have htrue := hr t rfl
    rw [he, hent] at htrue
    cases htrue
  | _ => rfl

section Stream

variable {s : State} {i : Instr}

theorem streamWrites_of_none (h : ∀ i, ¬s.InstrAt s.pc i) :
    s.streamWrites = true ↔ s.mulDivAt s.pc = true ∨ s.mulDivAt s.npc = true := by
  rw [State.streamWrites, (instrAt_eq_none_iff s s.pc).mpr h, Bool.or_eq_true]

theorem streamWrites_of_instr (h : s.InstrAt s.pc i) :
    s.streamWrites = true ↔
      s.mulDivAt s.pc = true ∨ (State.behind { s with env := [] } i).mulDivAt s.npc = true := by
  rw [State.streamWrites, (instrAt_iff s s.pc i).mpr h, Bool.or_eq_true]

theorem streamWrites_of_completes {t : State} (h : s.InstrAt s.pc i) (ht : exec i { s with env := [] } = .next t)
    (he : t.entered = false) : s.streamWrites = true ↔ s.mulDivAt s.pc = true ∨ t.mulDivAt s.npc = true := by
  have hcode : SameCode (State.behind { s with env := [] } i) t := (exec_ends i { s with env := [] }).sameCode ht he
  rw [streamWrites_of_instr h, hcode.mulDivAt_eq]

theorem streamWrites_of_ineffective (hent : s.entered = false) (h : s.InstrAt s.pc i)
    (hr : Ineffective (exec i { s with env := [] })) :
    s.streamWrites = true ↔ s.mulDivAt s.pc = true ∨ s.mulDivAt s.npc = true := by
  have hbehind : State.behind { s with env := [] } i = { s with env := [] } :=
    (exec_ends i { s with env := [] }).behind_eq hent hr
  have hcode : SameCode s { s with env := [] } := ⟨rfl, rfl, rfl, rfl, rfl, rfl⟩
  rw [streamWrites_of_instr h, hbehind, hcode.mulDivAt_eq]

end Stream

/-- Settles O10: the fetch by its debug conditions, the stream by how each of its instructions ends. -/
theorem fetchBreakpoints : Obligations.FetchBreakpoints := by
  refine ⟨fun s hreset hheld => ⟨fun ht he => ?_, fun h hstop htr => ?_⟩,
    fun s => ⟨writesBehind_of_noFetch, fun ha hb => ⟨writesBehind_of_unknown ha hb, fun hu =>
      ⟨fun _ => writesBehind_of_instr ha hb hu, writesBehind_of_other ha hb hu⟩⟩⟩,
    fun s i _ => ⟨fun t => State.past_of_completes, fun h => ?_⟩,
    mulDivAt_iff,
    fun s hent => ⟨fun i t => streamWrites_of_completes, fun i => streamWrites_of_ineffective hent, streamWrites_of_none⟩⟩
  · rw [step_of_fetch hreset hheld, fetchAndRun_of_stop ht he]
  · refine ⟨_, enterException_spec s.posted .debug _, ?_⟩
    rw [step_of_fetch hreset hheld, fetchAndRun_of_trap h hstop htr]
  · exact ⟨s.thirdAfter i, State.past_of_ineffective h, s.thirdAfter_of_not_branch, s.thirdAfter_of_branch⟩

end Sys2Proof.Machine
end
